-- ==== Sys2Proof/Word.lean ====
section
/-! DEFINITION. The word types of BBSPI: widths `BYTE_W`, `REG_W` and the 16-bit counts of
00_scope.md rule R8. Every value is unsigned, bit 0 is the least significant bit (rule R9). -/

namespace Sys2Proof

/-- A serial byte, `BYTE_W` = 8 bits (R8). -/
abbrev Byte := BitVec 8

/-- A cycle count: `HALFPER_W` = `SETTLE_W` = `WAIT_W` = 16 bits (R8). -/
abbrev Count := BitVec 16

/-- A host register and a command word, `REG_W` = 32 bits (R8). -/
abbrev Word := BitVec 32

end Sys2Proof
end

