-- ==== Sys2Proof/Config.lean ====
section
/-! DEFINITION. The implementation parameters of 00_scope.md rule R8, the two parameters the spec
leaves open, and the free values of the input ports. An `opaque` constant has no body: no proof can
see its value. -/

namespace Sys2Proof.Config

/-- `DEVR_MAX` (R8): the largest byte count of one DEVR command. -/
def devrMax : Nat := 4

/-- `NUM_CS` (R8): one chip-select line, the pin `CS_N`. -/
def numCs : Nat := 1

/-- `MISO_SYNC_STAGES` (R8, R133): no clock stage stands between the MISO pin and its sample. -/
def misoSyncStages : Nat := 0

/-- `F_CLK` (R8, R281, D31), left OPEN by the spec: the frequency of `clk` in Hz. Log 15. -/
opaque fClk : Nat

/-- `BBSPI_BASE` (R70, D7), left OPEN by the spec: the byte address of slot 0 in the host's
map. Log 15. -/
opaque bbspiBase : Nat

/-- R281: `n` cycles last `n / F_CLK` seconds. No rule of the machine depends on it. -/
def seconds (n : Nat) : Rat := n / fClk

/-- FREE VALUE (log 2): the level of `rst` at edge `n` where no input is scheduled. -/
opaque freeRst : Nat → Bool

/-- FREE VALUE (log 2): `bus_sel` at edge `n` where no input is scheduled (U12). -/
opaque freeBusSel : Nat → Bool

/-- FREE VALUE (log 2): `bus_we` at edge `n` where no input is scheduled (U12). -/
opaque freeBusWe : Nat → Bool

/-- FREE VALUE (log 2): `bus_addr` at edge `n` where no input is scheduled (U12). -/
opaque freeBusAddr : Nat → BitVec 3

/-- FREE VALUE (log 2): `bus_wdata` at edge `n` where no input is scheduled (U12). -/
opaque freeBusWdata : Nat → Word

/-- FREE VALUE (log 2): the MISO level before edge `n` where no input is scheduled (R22, U5). -/
opaque freeMiso : Nat → Bool

end Sys2Proof.Config
end

