-- ==== Sys2Proof/Machine/State.lean ====
section
/-! DEFINITION. The state of BBSPI as plain data: the pin registers, the host-visible registers and
the hidden sequencer state of 10_state.md, and the scheduled values of the input ports. -/

namespace Sys2Proof.Machine

/-- The input ports of R20 in one cycle, as they stand before the edge that ends it. `miso` is the
level `MISO` has in that cycle: a PINS read sees it (R63) and an `RXHI` at the edge samples it (R133). -/
structure PortIn where
  /-- `rst`, active high -/
  rst : Bool
  /-- `bus_sel`: a host register access takes place at this edge -/
  busSel : Bool
  /-- `bus_we`: with `bus_sel`, 1 = write and 0 = read -/
  busWe : Bool
  /-- `bus_addr`: the word index of the register slot -/
  busAddr : BitVec 3
  /-- `bus_wdata`: the write data -/
  busWdata : Word
  /-- `MISO`: the serial data input -/
  miso : Bool
  deriving DecidableEq, Repr

/-- The step kinds of 40_sequencing.md rule R124. A step carries the values that R122 fixes at
acceptance: the half period `h` and the read opcode `rdop` (log 7). -/
inductive SeqStep where
  /-- `CSLO`: take the chip-select token -/
  | cslo
  /-- `CSHI`: release the chip-select token -/
  | cshi
  /-- `CKIDLE`: return SCLK to 0 -/
  | ckidle
  /-- `TXLO(i, b)`: drive bit `i` of byte `b` and SCLK low, wait `h` -/
  | txlo (i : Fin 8) (b : Byte) (h : Count)
  /-- `TXHI`: SCLK high, wait `h` -/
  | txhi (h : Count)
  /-- `TXEND(b)`: read-arming after a transmitted byte, no wait -/
  | txend (b rdop : Byte)
  /-- `RXLO(i)`: SCLK low, wait `h` -/
  | rxlo (i : Fin 8) (h : Count)
  /-- `RXHI`: sample MISO, SCLK high, wait `h` -/
  | rxhi (h : Count)
  /-- `RXEND`: deliver the received byte, no wait -/
  | rxend
  /-- `HOLD(n)`: wait `n` -/
  | hold (n : Count)
  deriving DecidableEq, Repr

/-- The machine. Every field but the last two is a piece of state of 10_state.md; STATUS.CS is the
view `State.cs` of `csN`, and CMD, PINS and slot 7 store nothing. -/
structure State where
  /-- SCLK pin register (R21) -/
  sclk : Bool
  /-- MOSI pin register (R21) -/
  mosi : Bool
  /-- CS_N pin register, active low (R21) -/
  csN : Bool
  /-- STATUS.BUSY (R23) -/
  busy : Bool
  /-- STATUS.RD_ARMED (R23, R163) -/
  rdArmed : Bool
  /-- STATUS.FIRST (R23, R163) -/
  first : Bool
  /-- STATUS.ERR (R23, R224) -/
  err : Bool
  /-- STATUS.ERRCODE (R23, R221) -/
  errcode : BitVec 4
  /-- RXDATA, the receive accumulator (R25) -/
  rxdata : Word
  /-- HALFPER.HP (R26) -/
  hp : Count
  /-- SETTLE.ST (R28) -/
  st : Count
  /-- PROFILE.WROP (R27) -/
  wrop : Byte
  /-- PROFILE.RDOP (R27) -/
  rdop : Byte
  /-- STEPS, the steps still to run (R33): empty when BUSY = 0, and also in a running command's last
  wait and after `wait 0`, as R128 and R180 write it (log 6) -/
  steps : List SeqStep
  /-- DLY, the edges still to wait before the next step (R34) -/
  dly : Count
  /-- SR, the shift register (R35) -/
  sr : Byte
  /-- The MODEL's own: the input ports of the cycles to come, the current cycle first (log 1) -/
  inputs : List PortIn
  /-- The MODEL's own: how many edges have been taken; picks the free port values (log 2) -/
  edge : Nat
  deriving DecidableEq, Repr

/-- Why the machine stops with a fault: never. "BBSPI never stops: every edge has a defined next
state for every input" (93_implementation_defined.md), so there is no constructor and nothing raises
one (log 19). -/
inductive Fault
  deriving DecidableEq, Repr

/-- Why a request has no meaning. -/
inductive Refusal where
  /-- An instruction without a meaning yet. Raised by no arm of `exec`; safe. -/
  | notModelled (mnemonic : String)
  /-- A narrow, wide or misaligned request of a byte-addressed host: "no BBSPI access exists for it"
  (R65, U9). Raised by the host bridge, never by a step; safe. -/
  | noSuchAccess
  deriving DecidableEq, Repr

/-- The state after an edge with `rst = 1` (R37), with no input scheduled (log 3). -/
def State.reset : State where
  sclk := false
  mosi := false
  csN := true
  busy := false
  rdArmed := false
  first := false
  err := false
  errcode := 0
  rxdata := 0x00000000
  hp := 0xFFFF
  st := 0xFFFF
  wrop := 0x0A
  rdop := 0x0B
  steps := []
  dly := 0
  sr := 0x00
  inputs := []
  edge := 0

end Sys2Proof.Machine
end

