-- ==== Sys2Proof/Machine/Operands.lean ====
section
/-! DEFINITION. What a command's operands turn into: the step lists of 40_sequencing.md rules R122 and
R125 and of the command rules (41 to 44), built from the operands and the values `H`, `S`, `WROP`,
`RDOP` of the acceptance edge. -/

namespace Sys2Proof.Machine

/-- TXBYTE(b) (R125): 8 bits, each `TXLO` then `TXHI`, then `TXEND(b)`. -/
def txByte (b : Byte) (h : Count) (rdop : Byte) : List SeqStep :=
  [.txlo 0 b h, .txhi h, .txlo 1 b h, .txhi h, .txlo 2 b h, .txhi h, .txlo 3 b h, .txhi h,
   .txlo 4 b h, .txhi h, .txlo 5 b h, .txhi h, .txlo 6 b h, .txhi h, .txlo 7 b h, .txhi h,
   .txend b rdop]

/-- RXBYTE (R125): 8 bits, each `RXLO` then `RXHI`, then `RXEND`. -/
def rxByte (h : Count) : List SeqStep :=
  [.rxlo 0 h, .rxhi h, .rxlo 1 h, .rxhi h, .rxlo 2 h, .rxhi h, .rxlo 3 h, .rxhi h,
   .rxlo 4 h, .rxhi h, .rxlo 5 h, .rxhi h, .rxlo 6 h, .rxhi h, .rxlo 7 h, .rxhi h,
   .rxend]

/-- `repeat k RXBYTE` (R10, R200). -/
def rxBytes : Nat → Count → List SeqStep
  | 0, _ => []
  | k + 1, h => rxByte h ++ rxBytes k h

/-- A hold of `n` cycles: "a step list never contains `HOLD(0)`" (R122). -/
def holdSteps (n : Count) : List SeqStep :=
  if n = 0 then [] else [.hold n]

/-- The closing steps of a transaction (R151, D17). -/
def closeSteps : List SeqStep := [.cshi, .ckidle]

/-- CSA's step list (R150). -/
def csaSteps : List SeqStep := [.cslo]

/-- CSD's step list (R151). -/
def csdSteps : List SeqStep := closeSteps

/-- DISPW's step list (R190): address byte, settle hold, data byte. -/
def dispwSteps (a d : Byte) (s : State) : List SeqStep :=
  [.cslo] ++ txByte a s.hp s.rdop ++ holdSteps s.st ++ txByte d s.hp s.rdop ++ closeSteps

/-- DEVW's step list (R195): write opcode, address, data, with no hold between (D25). -/
def devwSteps (a d : Byte) (s : State) : List SeqStep :=
  [.cslo] ++ txByte s.wrop s.hp s.rdop ++ txByte a s.hp s.rdop ++ txByte d s.hp s.rdop ++
    closeSteps

/-- DEVR's step list (R200): read opcode, address, then `k` received bytes. -/
def devrSteps (a : Byte) (k : Nat) (s : State) : List SeqStep :=
  [.cslo] ++ txByte s.rdop s.hp s.rdop ++ txByte a s.hp s.rdop ++ rxBytes k s.hp ++ closeSteps

end Sys2Proof.Machine
end

