-- ==== Sys2Proof/Machine/Flags.lean ====
section
/-! DEFINITION. The flags of STATUS (10_state.md rules R23, R32), the misuse codes, and the recording
and clearing of a misuse error, BBSPI's only exception (60_exceptions.md). -/

namespace Sys2Proof.Machine

/-- The misuse errors of 60_exceptions.md rule R221. -/
inductive Misuse where
  /-- a CMD word that R95 calls illegal -/
  | illegal
  /-- a write to CMD, HALFPER, SETTLE or PROFILE while BUSY = 1 -/
  | busy
  /-- CSA, DISPW, DEVW or DEVR while CS = 1 -/
  | txnOpen
  /-- SEND, RECV or CSD while CS = 0 -/
  | noCs
  /-- RECV while CS = 1 and RD_ARMED = 0 -/
  | noReadMode
  deriving DecidableEq, Repr

/-- The value ERRCODE takes for an error (R221). -/
def Misuse.code : Misuse → BitVec 4
  | .illegal => 1
  | .busy => 2
  | .txnOpen => 3
  | .noCs => 4
  | .noReadMode => 5

/-- STATUS.CS, "equals NOT CS_N" (R23). -/
def State.cs (s : State) : Bool := !s.csN

/-- TAKING THE EXCEPTION: error entry (R224). The first error since ERR was last 0 is recorded; a
later one is lost; nothing else changes. -/
def State.raise (s : State) (m : Misuse) : State :=
  { s with err := true, errcode := if s.err then s.errcode else m.code }

/-- THE RETURN BESIDE IT: error clear (R225). -/
def State.clearError (s : State) : State :=
  { s with err := false, errcode := 0 }

/-- STATUS as a host read returns it: the bit layout of R23. -/
def State.status (s : State) : Word :=
  0#16 ++ s.errcode ++ 0#3 ++ BitVec.ofBool s.err ++ 0#4 ++ BitVec.ofBool s.first ++
    BitVec.ofBool s.rdArmed ++ BitVec.ofBool s.cs ++ BitVec.ofBool s.busy

/-- Read-arming at the end of a transmitted byte `b` (R163): it acts only if FIRST = 1. -/
def State.arm (s : State) (b rdop : Byte) : State :=
  { s with rdArmed := if s.first then b == rdop else s.rdArmed, first := false }

/-- Opening a transaction: FIRST <- 1, RD_ARMED <- 0 (R124 `CSLO`, R163). -/
def State.openTxn (s : State) : State :=
  { s with csN := false, first := true, rdArmed := false }

/-- Closing a transaction: FIRST <- 0, RD_ARMED <- 0 (R124 `CSHI`, R163). -/
def State.closeTxn (s : State) : State :=
  { s with csN := true, first := false, rdArmed := false }

end Sys2Proof.Machine
end

