-- ==== Sys2Proof/Machine/Ops.lean ====
section
/-! DEFINITION. The named operations over the state: the input ports of a cycle, the host register
space (20_memory.md), acceptance (R121) and reset (R260). Taking a misuse error (`State.raise`, R224)
and clearing it (`State.clearError`, R225) stand in Flags.lean. -/

namespace Sys2Proof.Machine

/-! ### Input ports, cycle by cycle -/

/-- The free port values of the cycle before edge `n` (log 2). -/
def PortIn.free (n : Nat) : PortIn where
  rst := Config.freeRst n
  busSel := Config.freeBusSel n
  busWe := Config.freeBusWe n
  busAddr := Config.freeBusAddr n
  busWdata := Config.freeBusWdata n
  miso := Config.freeMiso n

/-- The input ports `k` cycles from now: scheduled, or free beyond the schedule. -/
def State.portsAt (s : State) (k : Nat) : PortIn :=
  match s.inputs[k]? with
  | some p => p
  | none => PortIn.free (s.edge + k)

/-- The input ports of the current cycle. -/
def State.ports (s : State) : PortIn := s.portsAt 0

/-- The edge ends the current cycle: its port values are gone. -/
def State.nextCycle (s : State) : State :=
  { s with inputs := s.inputs.tail, edge := s.edge + 1 }

/-! ### The host register space (R60, R61) -/

/-- The eight register slots by name (R61). -/
inductive Reg where
  /-- slot 0, STATUS (R23) -/
  | status
  /-- slot 1, CMD (R24) -/
  | cmd
  /-- slot 2, RXDATA (R25) -/
  | rxdata
  /-- slot 3, HALFPER (R26) -/
  | halfper
  /-- slot 4, SETTLE (R28) -/
  | settle
  /-- slot 5, PROFILE (R27) -/
  | profile
  /-- slot 6, PINS (R29) -/
  | pins
  /-- slot 7, reserved (R30) -/
  | reserved
  deriving DecidableEq, Repr

/-- The register a slot index selects (R61). -/
def Reg.ofSlot (a : BitVec 3) : Reg :=
  match a.toNat with
  | 0 => .status
  | 1 => .cmd
  | 2 => .rxdata
  | 3 => .halfper
  | 4 => .settle
  | 5 => .profile
  | 6 => .pins
  | _ => .reserved

/-- The slot index of a register (R61). -/
def Reg.slot : Reg → BitVec 3
  | .status => 0
  | .cmd => 1
  | .rxdata => 2
  | .halfper => 3
  | .settle => 4
  | .profile => 5
  | .pins => 6
  | .reserved => 7

/-- HALFPER as read: HP in [15:0], 0 above (R26). -/
def State.halfperWord (s : State) : Word := 0#16 ++ s.hp

/-- SETTLE as read: ST in [15:0], 0 above (R28). -/
def State.settleWord (s : State) : Word := 0#16 ++ s.st

/-- PROFILE as read: `{16'b0, RDOP, WROP}` (R27). -/
def State.profileWord (s : State) : Word := 0#16 ++ s.rdop ++ s.wrop

/-- PINS as read: `{28'b0, MISO, CS_N, MOSI, SCLK}`, with the live MISO (R29). -/
def State.pinsWord (s : State) (miso : Bool) : Word :=
  0#28 ++ BitVec.ofBool miso ++ BitVec.ofBool s.csN ++ BitVec.ofBool s.mosi ++ BitVec.ofBool s.sclk

/-- `BusRead` of a register (R61, R63). It changes no state. -/
def State.busRead (s : State) (miso : Bool) : Reg → Word
  | .status => s.status
  | .cmd => 0
  | .rxdata => s.rxdata
  | .halfper => s.halfperWord
  | .settle => s.settleWord
  | .profile => s.profileWord
  | .pins => s.pinsWord miso
  | .reserved => 0

/-- `bus_rdata` in the current cycle: the addressed register while a read is selected, else 0 (R63). -/
def State.busRdata (s : State) : Word :=
  if s.ports.busSel && !s.ports.busWe then s.busRead s.ports.miso (Reg.ofSlot s.ports.busAddr) else 0

/-- A write of STATUS: bit 8 clears ERR and ERRCODE, every other bit is ignored (R23). -/
def State.writeStatus (s : State) (v : Word) : State :=
  if v.getLsbD 8 then s.clearError else s

/-- A write of a configuration register: discarded with `Misuse(BUSY)` while BUSY = 1 (R26 to R28). -/
def State.writeIfIdle (s new : State) : State :=
  if s.busy then s.raise .busy else new

/-- HP after a write of `v`: a zero is stored as 1 (R26). -/
def halfperOf (v : Word) : Count :=
  if v.extractLsb' 0 16 = 0 then 1 else v.extractLsb' 0 16

/-- `BusWrite` of every register but CMD (R61). Writes of RXDATA, PINS and slot 7 are ignored. A CMD
write is a command for acceptance (R121) and does not come here. -/
def State.busWrite (s : State) (v : Word) : Reg → State
  | .status => s.writeStatus v
  | .cmd => s
  | .rxdata => s
  | .halfper => s.writeIfIdle { s with hp := halfperOf v }
  | .settle => s.writeIfIdle { s with st := v.extractLsb' 0 16 }
  | .profile => s.writeIfIdle { s with wrop := v.extractLsb' 0 8, rdop := v.extractLsb' 8 8 }
  | .pins => s
  | .reserved => s

/-! ### Acceptance (R121) -/

/-- A command starts: BUSY <- 1, STEPS <- its list, DLY <- 0. The list may be empty (R180, log 6). -/
def State.accept (s : State) (steps : List SeqStep) : State :=
  { s with busy := true, steps := steps, dly := 0 }

/-- The state check of CSA, DISPW, DEVW and DEVR: they need CS = 0 (R121). -/
def State.needClosed (s : State) : Option Misuse :=
  if s.cs then some .txnOpen else none

/-- The state check of SEND and CSD: they need CS = 1 (R121). -/
def State.needOpen (s : State) : Option Misuse :=
  if s.cs then none else some .noCs

/-- The state check of RECV: CS = 1, then RD_ARMED = 1 (R121, R223). -/
def State.needReadMode (s : State) : Option Misuse :=
  if s.cs then if s.rdArmed then none else some .noReadMode else some .noCs

/-- A well-formed command presented at an edge: BUSY is judged first, then its state check, and if
both pass the command has started in the state `started` (R121, R223). -/
def State.attempt (s : State) (check : Option Misuse) (started : State) :
    Host.Outcome State Fault Refusal :=
  if s.busy then .next (s.raise .busy)
  else match check with
    | some m => .next (s.raise m)
    | none => .next started

/-! ### Reset (R260) -/

/-- An edge with `rst = 1`: every piece of state takes its value of R37. The schedule of input ports
is the outside world's and goes on (log 3). -/
def State.resetEdge (s : State) : State :=
  { State.reset with inputs := s.inputs.tail, edge := s.edge + 1 }

end Sys2Proof.Machine
end

