-- ==== Sys2Proof/Machine/Delay.lean ====
section
/-! DEFINITION. The delay command WAIT (43_delay.md). -/

namespace Sys2Proof.Machine

/-- WAIT (R180): hold all pins for `n` cycles. It makes no chip-select check. For `n = 0` it starts
the empty list, and BUSY is 1 for one cycle (R180, log 6). -/
def execWait (n : Count) (s : State) : Host.Outcome State Fault Refusal :=
  s.attempt none (s.accept (holdSteps n))

end Sys2Proof.Machine
end

