-- ==== Sys2Proof/Machine/Select.lean ====
section
/-! DEFINITION. The chip-select commands CSA and CSD (41_select.md). A command's meaning is its
acceptance at the edge of its CMD write; the sequencer runs its steps at the edges after (log 5). -/

namespace Sys2Proof.Machine

/-- CSA (R150): assert chip select and open a transaction. -/
def execCsa (s : State) : Host.Outcome State Fault Refusal :=
  s.attempt s.needClosed (s.accept csaSteps)

/-- CSD (R151): deassert chip select, close the transaction, return the clock to idle. -/
def execCsd (s : State) : Host.Outcome State Fault Refusal :=
  s.attempt s.needOpen (s.accept csdSteps)

end Sys2Proof.Machine
end

