-- ==== Sys2Proof/Syntax.lean ====
section
/-! DEFINITION. The commands of BBSPI: one constructor per row of spec/opcode_table.json
(30_encoding.md rule R93). -/

namespace Sys2Proof

/-- A BBSPI command. Operands are the byte fields `B0`, `B1` or the 16-bit field `N` as rule R90
cuts them out of the command word. -/
inductive Instr where
  /-- `csa`: assert chip select (R150). -/
  | csa
  /-- `csd`: deassert chip select (R151). -/
  | csd
  /-- `send b`: transmit one byte (R160). -/
  | send (b : Byte)
  /-- `recv`: receive one byte (R165). -/
  | recv
  /-- `wait n`: hold all pins for `n` cycles (R180). -/
  | wait (n : Count)
  /-- `dispw a, d`: display write transaction (R190). -/
  | dispw (a d : Byte)
  /-- `devw a, d`: accelerometer write transaction (R195). -/
  | devw (a d : Byte)
  /-- `devr a, cnt`: accelerometer read transaction of `cnt` bytes (R200). -/
  | devr (a cnt : Byte)
  deriving DecidableEq, Repr

end Sys2Proof
end

