-- ==== Sys2Proof/WellFormed.lean ====
section
/-! DEFINITION. Which commands are well formed (30_encoding.md rules R92, R94). The must-be-zero
fields of R94 are a matter of the word, checked by the decoder; the one check left on the operands is
DEVR's count. -/

namespace Sys2Proof

/-- R92: `CNT` must be `1..DEVR_MAX`. -/
def devrCountOk (cnt : Byte) : Bool :=
  decide (1 ≤ cnt.toNat) && decide (cnt.toNat ≤ Config.devrMax)

/-- R94: the constraint each command puts on its operands. -/
def Instr.wellFormed : Instr → Bool
  | .csa => true
  | .csd => true
  | .send _ => true
  | .recv => true
  | .wait _ => true
  | .dispw _ _ => true
  | .devw _ _ => true
  | .devr _ cnt => devrCountOk cnt

/-- A well-formed command, as a proposition. -/
abbrev Instr.WellFormed (i : Instr) : Prop := i.wellFormed = true

end Sys2Proof
end

