-- ==== Sys2Proof/Decode.lean ====
section
/-! DEFINITION. The command decoder, total on every 32-bit word (30_encoding.md rules R90 to R95), the
decoder table of R96, and the encoder of R97. Every CMD write is one whole command (R91): there is no
length to decode and no byte stream. -/

namespace Sys2Proof

/-- Why a CMD word is illegal (R95). All three raise `Misuse(ILLEGAL)`. -/
inductive Illegal where
  /-- its OP is 0x0 or 0x9–0xF -/
  | reservedOp
  /-- a must-be-zero field of R94 is nonzero -/
  | nonzeroField
  /-- it is a DEVR whose B1 is 0 or greater than 4 -/
  | devrCount
  deriving DecidableEq, Repr

/-! ### Fields of the command word (R90) -/

/-- OP = `w[3:0]`. -/
def cmdOp (w : Word) : BitVec 4 := w.extractLsb' 0 4

/-- Z0 = `w[7:4]`. -/
def cmdZ0 (w : Word) : BitVec 4 := w.extractLsb' 4 4

/-- B0 = `w[15:8]`. -/
def cmdB0 (w : Word) : Byte := w.extractLsb' 8 8

/-- B1 = `w[23:16]`. -/
def cmdB1 (w : Word) : Byte := w.extractLsb' 16 8

/-- Z1 = `w[31:24]`. -/
def cmdZ1 (w : Word) : Byte := w.extractLsb' 24 8

/-- N = `w[23:8]` = `{B1, B0}`, WAIT's 16-bit field. -/
def cmdN (w : Word) : Count := w.extractLsb' 8 16

/-! ### Must-be-zero fields (R94) -/

/-- Z0 and Z1 are zero: the fields every command needs zero. -/
def zOk (w : Word) : Bool := cmdZ0 w == 0 && cmdZ1 w == 0

/-- `w[31:4]` is zero: CSA, CSD, RECV. -/
def noOperandsOk (w : Word) : Bool := zOk w && cmdB0 w == 0 && cmdB1 w == 0

/-- `w[31:16]` and `w[7:4]` are zero: SEND. -/
def oneByteOk (w : Word) : Bool := zOk w && cmdB1 w == 0

/-- R92: a DEVR count is legal when it is `1..4`. -/
def legalCount (cnt : Byte) : Bool := decide (1 ≤ cnt.toNat) && decide (cnt.toNat ≤ 4)

/-- The command `i` if the must-be-zero check `ok` passed. -/
def checked (ok : Bool) (i : Instr) : Except Illegal Instr :=
  if ok then .ok i else .error .nonzeroField

/-- DEVR: the must-be-zero check, then the count (R95). -/
def decodeDevr (w : Word) : Except Illegal Instr :=
  if zOk w then
    if legalCount (cmdB1 w) then .ok (.devr (cmdB0 w) (cmdB1 w)) else .error .devrCount
  else .error .nonzeroField

/-- The decoder: the command a CMD word stands for (R93, R94), or why it is illegal (R95). -/
def decode (w : Word) : Except Illegal Instr :=
  match (cmdOp w).toNat with
  | 1 => checked (noOperandsOk w) .csa
  | 2 => checked (noOperandsOk w) .csd
  | 3 => checked (oneByteOk w) (.send (cmdB0 w))
  | 4 => checked (noOperandsOk w) .recv
  | 5 => checked (zOk w) (.wait (cmdN w))
  | 6 => checked (zOk w) (.dispw (cmdB0 w) (cmdB1 w))
  | 7 => checked (zOk w) (.devw (cmdB0 w) (cmdB1 w))
  | 8 => decodeDevr w
  | _ => .error .reservedOp

/-- The host's view of the decoder: an instruction of `nbits` bits whose bits are `w`, the bits above
`nbits` zero. A command is exactly one 32-bit word (R91), so a wider one is none (log 18). -/
def decodeTableWord (nbits w : Nat) : Option Instr :=
  if nbits ≤ 32 then
    match decode (BitVec.ofNat 32 (w % 2 ^ nbits)) with
    | .ok i => some i
    | .error _ => none
  else none

/-! ### Encoder (R97) -/

/-- A command word with two byte operands: `(b1 << 16) | (b0 << 8) | op`. -/
def packBytes (op : Word) (b0 b1 : Byte) : Word :=
  (b1.setWidth 32 <<< 16) ||| (b0.setWidth 32 <<< 8) ||| op

/-- The encoding function `enc` of R97. -/
def encode : Instr → Word
  | .csa => 0x00000001
  | .csd => 0x00000002
  | .send b => (b.setWidth 32 <<< 8) ||| 0x3
  | .recv => 0x00000004
  | .wait n => (n.setWidth 32 <<< 8) ||| 0x5
  | .dispw a d => packBytes 0x6 a d
  | .devw a d => packBytes 0x7 a d
  | .devr a cnt => packBytes 0x8 a cnt

/-! ### Decoder table (R96) -/

/-- The bits of a word the decoder compares for a command's row of the table (R96). -/
def rowMask : Instr → Word
  | .csa => 0xFFFFFFFF
  | .csd => 0xFFFFFFFF
  | .send _ => 0xFFFF00FF
  | .recv => 0xFFFFFFFF
  | .wait _ => 0xFF0000FF
  | .dispw _ _ => 0xFF0000FF
  | .devw _ _ => 0xFF0000FF
  | .devr _ _ => 0xFF0000FF

/-- The value of the compared bits for a command's row of the table (R96). -/
def rowMatch : Instr → Word
  | .csa => 0x00000001
  | .csd => 0x00000002
  | .send _ => 0x00000003
  | .recv => 0x00000004
  | .wait _ => 0x00000005
  | .dispw _ _ => 0x00000006
  | .devw _ _ => 0x00000007
  | .devr _ _ => 0x00000008

end Sys2Proof
end

