-- ==== Sys2Proof/Machine/Transactions.lean ====
section
/-! DEFINITION. The device transaction commands DISPW, DEVW and DEVR (44_transactions.md). -/

namespace Sys2Proof.Machine

/-- DISPW (R190): display write transaction. -/
def execDispw (a d : Byte) (s : State) : Host.Outcome State Fault Refusal :=
  s.attempt s.needClosed (s.accept (dispwSteps a d s))

/-- DEVW (R195): accelerometer write transaction. -/
def execDevw (a d : Byte) (s : State) : Host.Outcome State Fault Refusal :=
  s.attempt s.needClosed (s.accept (devwSteps a d s))

/-- DEVR's checks: a count of 0 or above 4 is `Misuse(ILLEGAL)`, which comes before the state check
(R200, R223). The decoder lets no such count through (log 13). -/
def State.devrCheck (s : State) (cnt : Byte) : Option Misuse :=
  if legalCount cnt then s.needClosed else some .illegal

/-- DEVR (R200): accelerometer read transaction of `cnt` bytes; RXDATA <- 0 at acceptance. -/
def execDevr (a cnt : Byte) (s : State) : Host.Outcome State Fault Refusal :=
  s.attempt (s.devrCheck cnt) { s.accept (devrSteps a cnt.toNat s) with rxdata := 0 }

end Sys2Proof.Machine
end

