-- ==== Sys2Proof/Machine/Transfer.lean ====
section
/-! DEFINITION. The byte transfer commands SEND and RECV (42_transfer.md). -/

namespace Sys2Proof.Machine

/-- SEND (R160): transmit one byte MSB first, with `H` and `RDOP` of the acceptance edge. -/
def execSend (b : Byte) (s : State) : Host.Outcome State Fault Refusal :=
  s.attempt s.needOpen (s.accept (txByte b s.hp s.rdop))

/-- RECV (R165): receive one byte MSB first. -/
def execRecv (s : State) : Host.Outcome State Fault Refusal :=
  s.attempt s.needReadMode (s.accept (rxByte s.hp))

end Sys2Proof.Machine
end

