-- ==== Sys2Proof/Machine/Dispatch.lean ====
section
/-! DEFINITION. One arm per command: the meaning of a well-formed command presented at an edge. -/

namespace Sys2Proof.Machine

def exec (i : Instr) (s : State) : Host.Outcome State Fault Refusal :=
  match i with
  | .csa => Sys2Proof.Machine.execCsa s
  | .csd => Sys2Proof.Machine.execCsd s
  | .send b => Sys2Proof.Machine.execSend b s
  | .recv => Sys2Proof.Machine.execRecv s
  | .wait n => Sys2Proof.Machine.execWait n s
  | .dispw a d => Sys2Proof.Machine.execDispw a d s
  | .devw a d => Sys2Proof.Machine.execDevw a d s
  | .devr a cnt => Sys2Proof.Machine.execDevr a cnt s

end Sys2Proof.Machine
end

