-- ==== Sys2Proof/Machine/Sequencer.lean ====
section
/-! DEFINITION. The sequencer: the actions and waits of the ten step kinds (40_sequencing.md rule
R124), the advance with its delay counter (R128) and completion (R130). -/

namespace Sys2Proof.Machine

/-- The wait of a step, in cycles (R124). -/
def SeqStep.wait : SeqStep → Count
  | .cslo => 1
  | .cshi => 1
  | .ckidle => 1
  | .txlo _ _ h => h
  | .txhi h => h
  | .txend _ _ => 0
  | .rxlo _ h => h
  | .rxhi h => h
  | .rxend => 0
  | .hold n => n

/-- `TXLO(i, b)` (R124, R161): MOSI <- s[7], SR <- {s[6:0], 0}, SCLK <- 0, where `s` is the byte at
bit 0 and SR after it. -/
def State.txLow (s : State) (i : Fin 8) (b : Byte) : State :=
  let v := if i = 0 then b else s.sr
  { s with mosi := v.getLsbD 7, sr := v <<< 1, sclk := false }

/-- `RXLO(i)` (R124, R166): SR <- 0 at bit 0, SCLK <- 0. -/
def State.rxLow (s : State) (i : Fin 8) : State :=
  { s with sr := if i = 0 then 0 else s.sr, sclk := false }

/-- `RXHI` (R124, R133): SR <- {SR[6:0], MISO}, SCLK <- 1. -/
def State.rxHigh (s : State) (miso : Bool) : State :=
  { s with sr := s.sr.extractLsb' 0 7 ++ BitVec.ofBool miso, sclk := true }

/-- `RXEND` (R124, R168): RXDATA <- {RXDATA[23:0], SR}, FIRST <- 0. -/
def State.deliver (s : State) : State :=
  { s with rxdata := s.rxdata.extractLsb' 0 24 ++ s.sr, first := false }

/-- The action of a step at its edge (R124); `miso` is the input as it stands before the edge. -/
def SeqStep.action (miso : Bool) (s : State) : SeqStep → State
  | .cslo => s.openTxn
  | .cshi => s.closeTxn
  | .ckidle => { s with sclk := false }
  | .txlo i b _ => s.txLow i b
  | .txhi _ => { s with sclk := true }
  | .txend b rdop => s.arm b rdop
  | .rxlo i _ => s.rxLow i
  | .rxhi _ => s.rxHigh miso
  | .rxend => s.deliver
  | .hold _ => s

/-- Completion (R130): BUSY <- 0, "STEPS is empty and DLY = 0" (log 8). -/
def State.complete (s : State) : State :=
  { s with busy := false, steps := [], dly := 0 }

/-- A step with a wait ran: the rest of the list stays, DLY <- wait - 1 (R128). BUSY stays 1 when the
rest is empty: the completion is the next due edge's (R130, log 6). -/
def State.hold (s : State) (rest : List SeqStep) (w : Count) : State :=
  { s with steps := rest, dly := w - 1 }

/-- The steps of one edge (R126, R128): zero-wait steps run and are removed, up to and with the first
step that waits; an exhausted list completes the command. -/
def State.runSteps (miso : Bool) : List SeqStep → State → State
  | [], s => s.complete
  | t :: rest, s =>
    if t.wait = 0 then State.runSteps miso rest (t.action miso s)
    else (t.action miso s).hold rest t.wait

/-- The sequencer's advance at an edge with BUSY = 1 before it (R128). -/
def State.advance (s : State) (miso : Bool) : State :=
  if s.dly = 0 then State.runSteps miso s.steps s else { s with dly := s.dly - 1 }

end Sys2Proof.Machine
end

