-- ==== Sys2Proof/Machine/Edge.lean ====
section
/-! DEFINITION. One rising edge of `clk` (40_sequencing.md rule R120): the host write, a CMD write's
acceptance, the sequencer's advance, and reset over all of them. -/

namespace Sys2Proof.Machine

/-- A CMD write (R121): while BUSY = 1 "the word was not even looked at" (D34); an illegal word raises
`Misuse(ILLEGAL)`; a command is judged by its own meaning. -/
def cmdWrite (w : Word) (s : State) : Host.Outcome State Fault Refusal :=
  if s.busy then .next (s.raise .busy)
  else match decode w with
    | .ok i => exec i s
    | .error _ => .next (s.raise .illegal)

/-- `BusWrite` of a register (R61, R62). -/
def hostWrite (r : Reg) (v : Word) (s : State) : Host.Outcome State Fault Refusal :=
  match r with
  | .cmd => cmdWrite v s
  | r => .next (s.busWrite v r)

/-- The host's part of an edge: a selected write takes effect, a read or an idle bus changes nothing
(R62, R63). -/
def hostAccess (p : PortIn) (s : State) : Host.Outcome State Fault Refusal :=
  if p.busSel && p.busWe then hostWrite (Reg.ofSlot p.busAddr) p.busWdata s else .next s

/-- The sequencer's part of an edge: it advances if BUSY = 1 before the edge (R120). -/
def sequencer (busyBefore : Bool) (miso : Bool) (s : State) : State :=
  if busyBefore then s.advance miso else s

/-- One rising edge with the input ports `p` (R120, R260). -/
def clockEdge (p : PortIn) (s : State) : Host.Outcome State Fault Refusal :=
  if p.rst then .next s.resetEdge
  else match hostAccess p s with
    | .next t => .next (sequencer s.busy p.miso t).nextCycle
    | .fault f => .fault f
    | .refused r => .refused r

/-! ### What the host puts on the bus -/

/-- A host access of one cycle (R62, R63). -/
inductive BusAccess where
  /-- `bus_sel = 0` -/
  | idle
  /-- a read of a register -/
  | read (r : Reg)
  /-- a write of a register -/
  | write (r : Reg) (v : Word)
  deriving DecidableEq, Repr

/-- The ports of a cycle with a host access on the bus and `rst = 0`; MISO as it was. -/
def PortIn.withAccess (p : PortIn) : BusAccess → PortIn
  | .idle => { p with rst := false, busSel := false }
  | .read r => { p with rst := false, busSel := true, busWe := false, busAddr := r.slot }
  | .write r v => { p with rst := false, busSel := true, busWe := true, busAddr := r.slot, busWdata := v }

/-- The host puts an access on the bus in the current cycle. The cycles after it are as they were. -/
def State.withAccess (s : State) (a : BusAccess) : State :=
  { s with inputs := s.ports.withAccess a :: s.inputs.tail }

/-- The output ports of R20 in the current cycle. -/
structure PortOut where
  /-- `bus_rdata` (R63) -/
  busRdata : Word
  /-- `SCLK` -/
  sclk : Bool
  /-- `MOSI` -/
  mosi : Bool
  /-- `CS_N` -/
  csN : Bool
  deriving DecidableEq, Repr

/-- The output ports as the state drives them (R7, R20, R21). -/
def State.outputs (s : State) : PortOut where
  busRdata := s.busRdata
  sclk := s.sclk
  mosi := s.mosi
  csN := s.csN

end Sys2Proof.Machine
end

