-- ==== Sys2Proof/Machine/Step.lean ====
section
/-! DEFINITION. One step of the machine: one rising edge of `clk` with the input ports of the current
cycle (00_scope.md rule R7), and how the host places a command for it. -/

namespace Sys2Proof.Machine

/-- One rising edge of `clk`. -/
def step (s : State) : Host.Outcome State Fault Refusal :=
  clockEdge s.ports s

/-- The machine fetches nothing: a command is a host write of CMD (R24, D43). So the word stands where
the next step takes it when the host writes it to slot 1 in the current cycle (log 4). -/
def State.withFetchWord (s : State) (nbits w : Nat) : State :=
  s.withAccess (.write .cmd (BitVec.ofNat 32 (w % 2 ^ nbits)))

end Sys2Proof.Machine
end

