-- ==== Sys2Proof/Machine/Assembler.lean ====
section
/-! DEFINITION. The assembler syntax of 30_encoding.md rule R97: one line of text to a command word.
"An assembler refuses an operand out of range." Layout details are log 16. -/

namespace Sys2Proof.Machine

/-- A command with operands as written: an operand out of range is refused (R97). -/
def assembleOperands (mnemonic : String) (operands : List Nat) : Option Word :=
  match mnemonic, operands with
  | "csa", [] => some (encode .csa)
  | "csd", [] => some (encode .csd)
  | "send", [b] => if b < 256 then some (encode (.send (BitVec.ofNat 8 b))) else none
  | "recv", [] => some (encode .recv)
  | "wait", [n] => if n < 65536 then some (encode (.wait (BitVec.ofNat 16 n))) else none
  | "dispw", [a, d] =>
    if a < 256 ∧ d < 256 then some (encode (.dispw (BitVec.ofNat 8 a) (BitVec.ofNat 8 d))) else none
  | "devw", [a, d] =>
    if a < 256 ∧ d < 256 then some (encode (.devw (BitVec.ofNat 8 a) (BitVec.ofNat 8 d))) else none
  | "devr", [a, k] =>
    if a < 256 ∧ 1 ≤ k ∧ k ≤ 4 then some (encode (.devr (BitVec.ofNat 8 a) (BitVec.ofNat 8 k)))
    else none
  | _, _ => none

/-- The value of a decimal digit. -/
def decDigit (c : Char) : Option Nat :=
  if '0' ≤ c ∧ c ≤ '9' then some (c.toNat - '0'.toNat) else none

/-- The value of a hexadecimal digit. -/
def hexDigit (c : Char) : Option Nat :=
  if '0' ≤ c ∧ c ≤ '9' then some (c.toNat - '0'.toNat)
  else if 'a' ≤ c ∧ c ≤ 'f' then some (c.toNat - 'a'.toNat + 10)
  else if 'A' ≤ c ∧ c ≤ 'F' then some (c.toNat - 'A'.toNat + 10)
  else none

/-- The digits of a number in a base, most significant first, after the value so far. -/
def digits (base : Nat) (digit : Char → Option Nat) : Nat → List Char → Option Nat
  | acc, [] => some acc
  | acc, c :: rest => (digit c).bind fun d => digits base digit (acc * base + d) rest

/-- A number, "hexadecimal with `0x` or decimal" (R97). -/
def parseNumber : List Char → Option Nat
  | [] => none
  | ['0', 'x'] => none
  | '0' :: 'x' :: cs => digits 16 hexDigit 0 cs
  | cs => digits 10 decDigit 0 cs

/-- Text without the blanks before and after it. A blank inside stays. -/
def trimBlanks (cs : List Char) : List Char :=
  ((cs.dropWhile (fun c => c == ' ')).reverse.dropWhile (fun c => c == ' ')).reverse

/-- The text between the commas of a line. -/
def splitAtCommas : List Char → List (List Char)
  | [] => [[]]
  | c :: rest =>
    match splitAtCommas rest with
    | [] => [[c]]
    | f :: fs => if c = ',' then [] :: f :: fs else (c :: f) :: fs

/-- The operand fields of a line. DESIGN CHOICE (log 16): blanks around an operand are ignored, and a
blank inside one makes it no number, so the line is refused. R97 does not say. -/
def operandFields (cs : List Char) : List (List Char) := (splitAtCommas cs).map trimBlanks

/-- The operands after the mnemonic: none at all, or numbers separated by commas. -/
def parseOperands (cs : List Char) : Option (List Nat) :=
  if cs.all (fun c => c == ' ') then some [] else (operandFields cs).mapM parseNumber

/-- One line of assembler text: the mnemonic, then its operands (R97). -/
def assembleChars (cs : List Char) : Option Word :=
  let line := cs.dropWhile (fun c => c == ' ')
  (parseOperands (line.dropWhile (fun c => c != ' '))).bind fun operands =>
    assembleOperands (String.ofList (line.takeWhile (fun c => c != ' '))) operands

/-- One line of assembler text. -/
def assemble (line : String) : Option Word := assembleChars line.toList

end Sys2Proof.Machine
end

