-- ==== Sys2Proof/Machine/Bridge.lean ====
section
/-! DEFINITION. A byte-addressed host in front of BBSPI (20_memory.md rules R60, R65, R69). It is not
part of a step: a request it refuses reaches no edge. Log 14. -/

namespace Sys2Proof.Machine

/-- The register a host request of `bytes` bytes at byte address `a` reaches: `a[4:2]` is the slot
(R65). "There are no byte enables and no narrower or wider accesses" (R64), and a misaligned request
"has no BBSPI access and no meaning. A model refuses it" (R65). -/
def bridgeAccess (a : Word) (bytes : Nat) : Host.Outcome Reg Fault Refusal :=
  if bytes = 4 ∧ a.extractLsb' 0 2 = 0 then .next (Reg.ofSlot (a.extractLsb' 2 3))
  else .refused .noSuchAccess

/-- The byte offset of a register's slot: slot `i` is at `4*i` (R60). -/
def Reg.byteOffset (r : Reg) : Nat := 4 * r.slot.toNat

/-- Byte lane `k` of a register word carries bits `[8k+7:8k]` (R69). -/
def byteLane (v : Word) (k : Fin 4) : Byte := v.extractLsb' (8 * k.val) 8

/-- The word whose byte lanes 0 to 3 are given (R69). -/
def wordOfLanes (b0 b1 b2 b3 : Byte) : Word := b3 ++ b2 ++ b1 ++ b0

end Sys2Proof.Machine
end

