-- ==== Sys2Proof/Machine/Script.lean ====
section
/-! DEFINITION. The host statements of 30_encoding.md rule R98: what a host script does to the machine,
cycle by cycle. They stand for host bus activity and are not BBSPI commands. Log 17. -/

namespace Sys2Proof.Machine

/-- The host statements (R98). -/
inductive HostStmt where
  /-- `wr <REG>, <value>` -/
  | wr (r : Reg) (v : Word)
  /-- `rd <REG>` -/
  | rd (r : Reg)
  /-- `sync`: read STATUS until BUSY = 0 -/
  | sync
  /-- `cmd <command>` -/
  | cmd (i : Instr)
  /-- `do <command>` -/
  | doCmd (i : Instr)
  /-- `clrerr` -/
  | clrerr
  /-- `idle <k>` -/
  | idle (k : Nat)
  deriving DecidableEq, Repr

/-- A host script as it runs: the machine now, what its reads returned, and every state it passed
through, oldest first. -/
structure Session where
  /-- the machine after the last edge -/
  now : State
  /-- the values its `rd` statements read, oldest first -/
  reads : List Word
  /-- the states after each edge, oldest first -/
  visited : List State
  deriving DecidableEq, Repr

/-- One cycle of the script: the access stands on the bus, `rst` is 0, and the edge is taken. -/
def busCycle (a : BusAccess) (x : Session) : Host.Outcome Session Fault Refusal :=
  match step (x.now.withAccess a) with
  | .next t => .next { x with now := t, visited := x.visited ++ [t] }
  | .fault f => .fault f
  | .refused r => .refused r

/-- What a read of a register returns in the current cycle. -/
def readNow (r : Reg) (s : State) : Word := (s.withAccess (.read r)).busRdata

/-- `rd`: one read in one cycle; its value is kept. -/
def readCycle (r : Reg) (x : Session) : Host.Outcome Session Fault Refusal :=
  busCycle (.read r) { x with reads := x.reads ++ [readNow r x.now] }

/-- `k` idle cycles. -/
def idleCycles : Nat → Session → Host.Outcome Session Fault Refusal
  | 0, x => .next x
  | k + 1, x =>
    match busCycle .idle x with
    | .next y => idleCycles k y
    | .fault f => .fault f
    | .refused r => .refused r

/-- The waits of the steps still to run, added up. -/
def sumWaits : List SeqStep → Nat
  | [] => 0
  | t :: rest => t.wait.toNat + sumWaits rest

/-- How many edges from now the running command's completion edge is: 0 when none runs (R127). -/
def State.remaining (s : State) : Nat :=
  if s.busy then s.dly.toNat + sumWaits s.steps + 1 else 0

/-- The polling loop of `sync`: it ends in the cycle of the first read that returns BUSY = 0. The
fuel is the number of polls still allowed to see BUSY = 1 (log 17). -/
def pollLoop : Nat → Session → Host.Outcome Session Fault Refusal
  | 0, x => busCycle (.read .status) x
  | k + 1, x =>
    match busCycle (.read .status) x with
    | .next y => if (readNow .status x.now).getLsbD 0 then pollLoop k y else .next y
    | .fault f => .fault f
    | .refused r => .refused r

/-- `sync`: polls until BUSY = 0. The running command needs `remaining` more edges. -/
def sync (x : Session) : Host.Outcome Session Fault Refusal :=
  pollLoop x.now.remaining x

/-- What one host statement does (R98). -/
def runStmt (x : Session) : HostStmt → Host.Outcome Session Fault Refusal
  | .wr r v => busCycle (.write r v) x
  | .rd r => readCycle r x
  | .sync => sync x
  | .cmd i => busCycle (.write .cmd (encode i)) x
  | .doCmd i =>
    match busCycle (.write .cmd (encode i)) x with
    | .next y => sync y
    | .fault f => .fault f
    | .refused r => .refused r
  | .clrerr => busCycle (.write .status 0x00000100) x
  | .idle k => idleCycles k x

/-- A script, statement by statement. -/
def runStmts : List HostStmt → Session → Host.Outcome Session Fault Refusal
  | [], x => .next x
  | h :: rest, x =>
    match runStmt x h with
    | .next y => runStmts rest y
    | .fault f => .fault f
    | .refused r => .refused r

/-- A script from a state. -/
def runScript (script : List HostStmt) (s : State) : Host.Outcome Session Fault Refusal :=
  runStmts script ⟨s, [], []⟩

/-- MOSI at each rising edge of SCLK along a list of states, the first state included only as the
level before (95_test_vectors.md, "MOSI@rise"). -/
def mosiAtRise : State → List State → List Bool
  | _, [] => []
  | s, t :: rest => (if !s.sclk && t.sclk then [t.mosi] else []) ++ mosiAtRise t rest

end Sys2Proof.Machine
end

