-- ==== Sys2Proof/Safety.lean ====
section
/-! DEFINITION. The terms the statements about BBSPI use: runs of several edges, the invariant of the
machine, the step schedule of 40_sequencing.md rule R127, and the tables of R121, R122 and R131 written
down as the rules give them. -/

namespace Sys2Proof.Safety

open Sys2Proof.Machine

/-! ### Runs -/

/-- The state after `n` edges. -/
def runEdges : Nat → State → Host.Outcome State Fault Refusal
  | 0, s => .next s
  | n + 1, s =>
    match step s with
    | .next t => runEdges n t
    | .fault f => .fault f
    | .refused r => .refused r

/-- `rst` is 0 at each of the next `n` edges. -/
abbrev NoReset (n : Nat) (s : State) : Prop := ∀ k, k < n → (s.portsAt k).rst = false

/-- At the next edge the host writes `v` to the register `r`, and `rst` is 0. -/
abbrev WritesReg (s : State) (r : Reg) (v : Word) : Prop :=
  s.ports.rst = false ∧ s.ports.busSel = true ∧ s.ports.busWe = true ∧ s.ports.busAddr = r.slot ∧
    s.ports.busWdata = v

/-- At the next edge the host writes the word of the command `i` to CMD. -/
abbrev Presents (s : State) (i : Instr) : Prop := WritesReg s .cmd (encode i)

/-- MISO as it stands before each edge from now on. -/
def misoOf (s : State) (k : Nat) : Bool := (s.portsAt k).miso

/-! ### Command words -/

/-- The operands a command has when its word is `w` (R90, R92). -/
def OperandsAre (w : Word) : Instr → Prop
  | .csa | .csd | .recv => True
  | .send b => b = w.extractLsb' 8 8
  | .wait n => n = w.extractLsb' 8 16
  | .dispw a d => a = w.extractLsb' 8 8 ∧ d = w.extractLsb' 16 8
  | .devw a d => a = w.extractLsb' 8 8 ∧ d = w.extractLsb' 16 8
  | .devr a cnt => a = w.extractLsb' 8 8 ∧ cnt = w.extractLsb' 16 8

/-! ### What a command asks of the state, and what it expands to (R121, R122) -/

/-- The state check of R121, command by command; the code it raises is R221's. -/
def stateCheck (i : Instr) (s : State) : Option Misuse :=
  match i with
  | .csa => if s.csN = false then some .txnOpen else none
  | .csd => if s.csN = true then some .noCs else none
  | .send _ => if s.csN = true then some .noCs else none
  | .recv => if s.csN = true then some .noCs else if s.rdArmed = false then some .noReadMode else none
  | .wait _ => none
  | .dispw _ _ => if s.csN = false then some .txnOpen else none
  | .devw _ _ => if s.csN = false then some .txnOpen else none
  | .devr _ _ => if s.csN = false then some .txnOpen else none

/-- TXBYTE (R125) as a count of bits: bits `i` to 7, then the end. -/
def txBits (b : Byte) (h : Count) (rdop : Byte) : List SeqStep :=
  (List.finRange 8).flatMap (fun i => [SeqStep.txlo i b h, SeqStep.txhi h]) ++ [.txend b rdop]

/-- RXBYTE (R125) as a count of bits. -/
def rxBits (h : Count) : List SeqStep :=
  (List.finRange 8).flatMap (fun i => [SeqStep.rxlo i h, SeqStep.rxhi h]) ++ [.rxend]

/-- `expand(w)` (R122): the command's step list from the values of the acceptance edge. -/
def expand (i : Instr) (s : State) : List SeqStep :=
  match i with
  | .csa => [.cslo]
  | .csd => [.cshi, .ckidle]
  | .send b => txBits b s.hp s.rdop
  | .recv => rxBits s.hp
  | .wait n => if n = 0 then [] else [.hold n]
  | .dispw a d =>
    [.cslo] ++ txBits a s.hp s.rdop ++ (if s.st = 0 then [] else [.hold s.st]) ++
      txBits d s.hp s.rdop ++ [.cshi, .ckidle]
  | .devw a d =>
    [.cslo] ++ txBits s.wrop s.hp s.rdop ++ txBits a s.hp s.rdop ++ txBits d s.hp s.rdop ++
      [.cshi, .ckidle]
  | .devr a cnt =>
    [.cslo] ++ txBits s.rdop s.hp s.rdop ++ txBits a s.hp s.rdop ++
      (List.replicate cnt.toNat (rxBits s.hp)).flatten ++ [.cshi, .ckidle]

/-- The column D of R131: the sum of a command's waits, with `H` and `S` of the acceptance edge. -/
def duration (i : Instr) (s : State) : Nat :=
  match i with
  | .csa => 1
  | .csd => 2
  | .send _ => 16 * s.hp.toNat
  | .recv => 16 * s.hp.toNat
  | .wait n => n.toNat
  | .dispw _ _ => 32 * s.hp.toNat + s.st.toNat + 3
  | .devw _ _ => 48 * s.hp.toNat + 3
  | .devr _ cnt => (32 + 16 * cnt.toNat) * s.hp.toNat + 3

/-! ### The step schedule (R127) -/

/-- The steps of a list that run at edges up to `n`, run in order, where the first runs at edge `e` and
each later one its predecessor's wait after it (R127). Edge `e` samples `miso e`. -/
def ranBy (miso : Nat → Bool) (n : Nat) : Nat → List SeqStep → State → State
  | _, [], s => s
  | e, t :: rest, s =>
    if e ≤ n then ranBy miso n (e + t.wait.toNat) rest (t.action (miso e) s) else s

/-- Two states agree on the pins, the flags FIRST and RD_ARMED, RXDATA, SR and the configuration. -/
abbrev SameDatapath (s t : State) : Prop :=
  s.sclk = t.sclk ∧ s.mosi = t.mosi ∧ s.csN = t.csN ∧ s.rdArmed = t.rdArmed ∧ s.first = t.first ∧
    s.rxdata = t.rxdata ∧ s.sr = t.sr ∧ s.hp = t.hp ∧ s.st = t.st ∧ s.wrop = t.wrop ∧ s.rdop = t.rdop

/-- Two states agree on the running command: datapath, BUSY, STEPS and DLY. -/
abbrev SameCommand (s t : State) : Prop :=
  SameDatapath s t ∧ s.busy = t.busy ∧ s.steps = t.steps ∧ s.dly = t.dly

/-- A step that writes SCLK (R124). -/
def writesSclk : SeqStep → Bool
  | .ckidle | .txlo _ _ _ | .txhi _ | .rxlo _ _ | .rxhi _ => true
  | .cslo | .cshi | .txend _ _ | .rxend | .hold _ => false

/-- A step that writes MOSI (R124). -/
def writesMosi : SeqStep → Bool
  | .txlo _ _ _ => true
  | .cslo | .cshi | .ckidle | .txhi _ | .txend _ _ | .rxlo _ _ | .rxhi _ | .rxend | .hold _ => false

/-- A step that writes CS_N (R124). -/
def writesCsN : SeqStep → Bool
  | .cslo | .cshi => true
  | .ckidle | .txlo _ _ _ | .txhi _ | .txend _ _ | .rxlo _ _ | .rxhi _ | .rxend | .hold _ => false

/-- `ran` are steps that share one edge: all but the last have wait 0 (R126). -/
abbrev ShareAnEdge (ran : List SeqStep) : Prop := ∀ x ∈ ran.dropLast, x.wait = 0

/-- The steps of a list that run at one edge when the first of them is due: the zero-wait steps at its
head and the first step after them (R126, R128). -/
def dueNow : List SeqStep → List SeqStep
  | [] => []
  | t :: rest => if t.wait = 0 then t :: dueNow rest else [t]

/-! ### The invariant -/

/-- A step with the wait its kind must have: "wait(t) >= 1" for every kind but TXEND and RXEND (R124,
R128). -/
def legalWait : SeqStep → Bool
  | .txend _ _ | .rxend => true
  | .cslo | .cshi | .ckidle => true
  | .txlo _ _ h | .txhi h | .rxlo _ h | .rxhi h => h != 0
  | .hold n => n != 0

/-- The discipline of chip select and clock over the steps still to run, from the pins as they are
(R151, R152): the token is taken only when free and with the clock low, released only when held, bytes
move only while it is held, and a list that leaves it free leaves the clock low. -/
def disciplined (csN sclk : Bool) : List SeqStep → Bool
  | [] => !(csN && sclk)
  | .cslo :: rest => csN && !sclk && disciplined false sclk rest
  | .cshi :: rest => !csN && disciplined true sclk rest
  | .ckidle :: rest => disciplined csN false rest
  | .txlo _ _ _ :: rest => !csN && disciplined csN false rest
  | .txhi _ :: rest => !csN && disciplined csN true rest
  | .txend _ _ :: rest => !csN && disciplined csN sclk rest
  | .rxlo _ _ :: rest => !csN && disciplined csN false rest
  | .rxhi _ :: rest => !csN && disciplined csN true rest
  | .rxend :: rest => !csN && disciplined csN sclk rest
  | .hold _ :: rest => disciplined csN sclk rest

/-- What holds of every state a run from reset reaches. -/
structure Inv (s : State) : Prop where
  /-- R33, R130: an idle machine has no step to run and no edge to wait (log 6) -/
  idle_is_empty : s.busy = false → s.steps = [] ∧ s.dly = 0
  /-- R223: RD_ARMED is 0 while CS = 0, and so is FIRST -/
  closed_is_unarmed : s.csN = true → s.first = false ∧ s.rdArmed = false
  /-- R163: no byte sent yet, so reads are not armed -/
  first_is_unarmed : s.first = true → s.rdArmed = false
  /-- R23: ERRCODE is 0 while ERR = 0 -/
  no_error_no_code : s.err = false → s.errcode = 0
  /-- R221: a recorded error has one of the codes 1 to 5; 6 to 15 are never produced -/
  error_has_code : s.err = true → 1 ≤ s.errcode.toNat ∧ s.errcode.toNat ≤ 5
  /-- R26: legal values of HP are 1..65535 -/
  half_period_legal : s.hp ≠ 0
  /-- R122, R128: no step but TXEND and RXEND has wait 0 -/
  waits_legal : ∀ t ∈ s.steps, legalWait t = true
  /-- R151, R152: chip select and clock keep their discipline -/
  pins_disciplined : disciplined s.csN s.sclk s.steps = true

/-! ### Bytes on the serial lines -/

/-- The bits of a byte in serial order, most significant first (R67). -/
def msbFirst (b : Byte) : List Bool :=
  (List.finRange 8).map (fun i => b.getLsbD (7 - i.val))

end Sys2Proof.Safety
end

