-- ==== Sys2Proof/Certificates/Slice0/Obligations.lean ====
section
/-! DEFINITION. The statements about the model, one `def Obligations.<Name> : Prop` each. A statement
about an edge or a run holds for every schedule of input ports: `State.portsAt` gives the ports of a
cycle whether they are scheduled or free, and no statement rests on the value of `State.edge`. -/

open Sys2Proof Sys2Proof.Machine Sys2Proof.Safety

/-! ### Encoding -/

/-- 95_test_vectors.md section 2.1: the table's eleven legal words and what they decode as, and four
of its illegal words. The names of the reasons are the model's own. -/
def Obligations.DecodesPublishedWords : Prop :=
  decode 0x00000001 = .ok .csa ∧ decode 0x00000002 = .ok .csd ∧
  decode 0x00003E03 = .ok (.send 0x3E) ∧ decode 0x00000004 = .ok .recv ∧
  decode 0x00000305 = .ok (.wait 3) ∧ decode 0x00FFFF05 = .ok (.wait 65535) ∧
  decode 0x00000005 = .ok (.wait 0) ∧
  decode 0x003E0106 = .ok (.dispw 0x01 0x3E) ∧ decode 0x00521F07 = .ok (.devw 0x1F 0x52) ∧
  decode 0x00020E08 = .ok (.devr 0x0E 2) ∧ decode 0x00040008 = .ok (.devr 0x00 4) ∧
  decode 0x00000000 = .error .reservedOp ∧ decode 0x00000013 = .error .nonzeroField ∧
  decode 0x00010003 = .error .nonzeroField ∧ decode 0x00050008 = .error .devrCount

/-- R96: a word decodes to a command exactly when the bits under the command's mask are its match
value and its other constraint holds, with the operands its fields give; two rows never both match.
-/
def Obligations.DecoderFollowsItsTable : Prop :=
  (∀ (w : Word) (i : Instr), decode w = .ok i ↔
    w &&& rowMask i = rowMatch i ∧ i.WellFormed ∧ OperandsAre w i) ∧
  (∀ (w : Word) (i j : Instr), w &&& rowMask i = rowMatch i → w &&& rowMask j = rowMatch j →
    rowMatch i = rowMatch j)

/-- Decode and encode agree: every well-formed command, with every value of its operands, comes back
from its word. -/
def Obligations.DecodeInvertsEncode : Prop :=
  ∀ i : Instr, i.WellFormed → decode (encode i) = .ok i

/-- Encode and decode agree the other way: a legal word is the encoding of the command it decodes
to. -/
def Obligations.EncodeInvertsDecode : Prop :=
  ∀ (w : Word) (i : Instr), decode w = .ok i → encode i = w ∧ i.WellFormed

/-- R95: which words are illegal, and what an illegal word does at its edge: it starts nothing, raises
`Misuse(ILLEGAL)` and changes only ERR and ERRCODE. -/
def Obligations.IllegalWordsAreRefused : Prop :=
  (∀ w : Word, (∃ r, decode w = .error r) ↔
    ((w.extractLsb' 0 4).toNat = 0 ∨ 9 ≤ (w.extractLsb' 0 4).toNat ∨
    ((w.extractLsb' 0 4).toNat ∈ [1, 2, 4] ∧ w.extractLsb' 4 28 ≠ 0) ∨
    ((w.extractLsb' 0 4).toNat = 3 ∧ (w.extractLsb' 16 16 ≠ 0 ∨ w.extractLsb' 4 4 ≠ 0)) ∨
    ((w.extractLsb' 0 4).toNat ∈ [5, 6, 7, 8] ∧
      (w.extractLsb' 24 8 ≠ 0 ∨ w.extractLsb' 4 4 ≠ 0)) ∨
    ((w.extractLsb' 0 4).toNat = 8 ∧
      ((w.extractLsb' 16 8).toNat = 0 ∨ 4 < (w.extractLsb' 16 8).toNat)))) ∧
  (∀ (s : State) (w : Word) (r : Illegal), s.busy = false → decode w = .error r →
    WritesReg s .cmd w →
    step s = .next { s with
      err := true, errcode := if s.err = true then s.errcode else 1,
      inputs := s.inputs.tail, edge := s.edge + 1 })

/-! ### Reset -/

/-- R37: the value every piece of state holds after reset. -/
def Obligations.ResetStateValues : Prop :=
  State.reset.sclk = false ∧ State.reset.mosi = false ∧ State.reset.csN = true ∧
  State.reset.busy = false ∧ State.reset.cs = false ∧ State.reset.rdArmed = false ∧
  State.reset.first = false ∧ State.reset.err = false ∧ State.reset.errcode = 0 ∧
  State.reset.rxdata = 0x00000000 ∧ State.reset.hp = 0xFFFF ∧ State.reset.st = 0xFFFF ∧
  State.reset.wrop = 0x0A ∧ State.reset.rdop = 0x0B ∧ State.reset.steps = [] ∧
  State.reset.dly = 0 ∧ State.reset.sr = 0x00

/-- R260: an edge with `rst = 1` gives the reset values from every state, whatever the host writes and
whatever command runs, and host reads return them. It holds of every edge, so the values stay while
`rst` stays 1. That the input ports of later cycles go on (`t.portsAt k`) is the model's DESIGN CHOICE
(log 3), not R260's. -/
def Obligations.ResetOverridesEverything : Prop :=
  ∀ s : State, s.ports.rst = true → ∃ t, step s = .next t ∧
    t.sclk = false ∧ t.mosi = false ∧ t.csN = true ∧ t.busy = false ∧ t.rdArmed = false ∧
    t.first = false ∧ t.err = false ∧ t.errcode = 0 ∧ t.rxdata = 0 ∧ t.hp = 0xFFFF ∧
    t.st = 0xFFFF ∧ t.wrop = 0x0A ∧ t.rdop = 0x0B ∧ t.steps = [] ∧ t.dly = 0 ∧ t.sr = 0 ∧
    (∀ k, t.portsAt k = s.portsAt (k + 1)) ∧
    (∀ miso, t.busRead miso .status = 0 ∧ t.busRead miso .rxdata = 0 ∧
      t.busRead miso .halfper = 0xFFFF ∧ t.busRead miso .settle = 0xFFFF ∧
      t.busRead miso .profile = 0x0B0A ∧
      t.busRead miso .pins = if miso = true then 0xC else 0x4)

/-! ### The whole machine -/

/-- "BBSPI never stops: every edge has a defined next state for every input" (93). -/
def Obligations.EveryEdgeHasANextState : Prop := ∀ s : State, ∃ t, step s = .next t

/-- The invariant holds after reset. -/
def Obligations.ResetMeetsInvariant : Prop := Inv State.reset

/-- Every step keeps the invariant, from every state that meets it and for every input. -/
def Obligations.EveryStepKeepsInvariant : Prop :=
  ∀ s t : State, Inv s → step s = .next t → Inv t

/-- SCLK rises only while the chip-select token is held: the device never sees a rising clock edge
while it is deselected (R152, D17). -/
def Obligations.ClockRisesOnlyWhileSelected : Prop :=
  ∀ s t : State, Inv s → step s = .next t → s.sclk = false → t.sclk = true →
    s.csN = false ∧ t.csN = false

/-- "clock idles low" (C1): a step from a state of the invariant that leaves no command running and no
transaction open leaves SCLK at 0. -/
def Obligations.ClockIdlesLow : Prop :=
  ∀ s t : State, Inv s → step s = .next t → t.busy = false → t.csN = true → t.sclk = false

/-- R153: CS_N changes only at a CSLO step, a CSHI step or reset. Where `rst` is 0 and CS_N changes,
the step that ran last at the edge is CSLO or CSHI, after zero-wait steps only. -/
def Obligations.ChipSelectChangesOnlyByItsSteps : Prop :=
  ∀ s t : State, s.ports.rst = false → step s = .next t → t.csN ≠ s.csN →
    s.busy = true ∧ s.dly = 0 ∧ ∃ ran x, s.steps = ran ++ x :: t.steps ∧
      (∀ y ∈ ran, y.wait = 0) ∧ (x = .cslo ∧ t.csN = false ∨ x = .cshi ∧ t.csN = true)

/-- R135: while BUSY = 0 the pins keep their values; while a command runs, a pin changes only at an
edge where one of its steps writes that pin. -/
def Obligations.PinsChangeOnlyAtStepEdges : Prop :=
  ∀ s t : State, s.ports.rst = false → step s = .next t →
    (s.busy = false → t.sclk = s.sclk ∧ t.mosi = s.mosi ∧ t.csN = s.csN) ∧
    (s.busy = true → s.dly ≠ 0 → t.sclk = s.sclk ∧ t.mosi = s.mosi ∧ t.csN = s.csN) ∧
    (s.busy = true → s.dly = 0 → ∃ ran, s.steps = ran ++ t.steps ∧ ShareAnEdge ran ∧
      (t.sclk ≠ s.sclk → ∃ x ∈ ran, writesSclk x = true) ∧
      (t.mosi ≠ s.mosi → ∃ x ∈ ran, writesMosi x = true) ∧
      (t.csN ≠ s.csN → ∃ x ∈ ran, writesCsN x = true))

/-- R137: a running command runs to completion and nothing but reset stops or changes it. Two
machines with the same running command and the same MISO, under any two hosts and with any errors
recorded, stay in step at every edge up to completion, and both complete. -/
def Obligations.HostCannotDisturbARunningCommand : Prop :=
  ∀ (s s' : State) (n : Nat), SameCommand s s' → s.busy = true → n ≤ s.remaining →
    NoReset n s → NoReset n s' → (∀ k, k < n → misoOf s k = misoOf s' k) →
    ∃ t t', runEdges n s = .next t ∧ runEdges n s' = .next t' ∧ SameCommand t t' ∧
      (n = s.remaining → t.busy = false ∧ t.steps = [])

/-- The serial device acts on BBSPI only through the samples of RXHI steps: where no RXHI is among
the steps that run at this edge (the machine is idle, or waits, or the steps due are others), the
next state does not depend on MISO (R22, R77, R220). -/
def Obligations.MisoActsOnlyThroughSamples : Prop :=
  ∀ (s s' : State) (p : PortIn) (m : Bool) (rest : List PortIn),
    s.inputs = p :: rest → s' = { s with inputs := { p with miso := m } :: rest } →
    (s.busy = false ∨ s.dly ≠ 0 ∨ ∀ h, SeqStep.rxhi h ∉ dueNow s.steps) →
    step s' = step s

/-! ### Acceptance -/

/-- R121: a CMD write with the word `w` at an edge, judged against the state before it: BUSY, then
ILLEGAL, then the command's state check, and if all pass the command starts. The BUSY case is a
running command's edge with the host idle, plus the error. -/
def Obligations.AcceptanceOfACommand : Prop :=
  ∀ (s : State) (w : Word), WritesReg s .cmd w →
    (s.busy = true → ∃ u, step (s.withAccess .idle) = .next u ∧ step s =
      .next { u with err := true, errcode := if s.err = true then s.errcode else 2 }) ∧
    (∀ r, s.busy = false → decode w = .error r → step s = .next { s with
      err := true, errcode := if s.err = true then s.errcode else 1,
      inputs := s.inputs.tail, edge := s.edge + 1 }) ∧
    (∀ i m, s.busy = false → decode w = .ok i → stateCheck i s = some m → step s = .next { s with
      err := true, errcode := if s.err = true then s.errcode else m.code,
      inputs := s.inputs.tail, edge := s.edge + 1 }) ∧
    (∀ i, s.busy = false → decode w = .ok i → stateCheck i s = none → step s = .next { s with
      busy := true, steps := expand i s, dly := 0,
      rxdata := match i with | .devr _ _ => 0 | _ => s.rxdata,
      inputs := s.inputs.tail, edge := s.edge + 1 })

/-- A step runs the decoded command: where the host writes the word of a command to CMD, the step is
`exec` of that command, then the sequencer's advance if BUSY was 1, and the cycle is over. -/
def Obligations.StepRunsTheDecodedCommand : Prop :=
  ∀ (s : State) (w : Word) (i : Instr), WritesReg s .cmd w → decode w = .ok i →
    ∃ t, exec i s = .next t ∧
      step s = .next (if s.busy = true then t.advance s.ports.miso else t).nextCycle

/-- CSA from an idle machine with the token free starts `[CSLO]`, and changes nothing else (R150). -/
def Obligations.CsaStarts : Prop :=
  ∀ s : State, s.busy = false → s.csN = true →
    exec .csa s = .next { s with busy := true, steps := [.cslo], dly := 0 }

/-- CSD from an idle machine with the token held starts `[CSHI, CKIDLE]`, and changes nothing else
(R151). -/
def Obligations.CsdStarts : Prop :=
  ∀ s : State, s.busy = false → s.csN = false →
    exec .csd s = .next { s with busy := true, steps := [.cshi, .ckidle], dly := 0 }

/-- SEND from an idle machine with the token held starts TXBYTE(b), and changes nothing else (R160).
-/
def Obligations.SendStarts : Prop :=
  ∀ (s : State) (b : Byte), s.busy = false → s.csN = false →
    exec (.send b) s = .next { s with busy := true, steps := txBits b s.hp s.rdop, dly := 0 }

/-- RECV from an idle machine with the token held and reads armed starts RXBYTE, and changes nothing
else (R165). -/
def Obligations.RecvStarts : Prop :=
  ∀ s : State, s.busy = false → s.csN = false → s.rdArmed = true →
    exec .recv s = .next { s with busy := true, steps := rxBits s.hp, dly := 0 }

/-- WAIT from an idle machine, inside or outside a transaction, starts its hold, and changes nothing
else; with N = 0 it starts an empty list (R180). -/
def Obligations.WaitStarts : Prop :=
  ∀ (s : State) (n : Count), s.busy = false →
    exec (.wait n) s =
      .next { s with busy := true, steps := if n = 0 then [] else [.hold n], dly := 0 }

/-- DISPW from an idle machine with the token free starts its transaction, and changes nothing else
(R190). -/
def Obligations.DispwStarts : Prop :=
  ∀ (s : State) (a d : Byte), s.busy = false → s.csN = true →
    exec (.dispw a d) s = .next { s with
      busy := true, dly := 0,
      steps := [.cslo] ++ txBits a s.hp s.rdop ++ (if s.st = 0 then [] else [.hold s.st]) ++
        txBits d s.hp s.rdop ++ [.cshi, .ckidle] }

/-- DEVW from an idle machine with the token free starts its transaction, and changes nothing else
(R195). -/
def Obligations.DevwStarts : Prop :=
  ∀ (s : State) (a d : Byte), s.busy = false → s.csN = true →
    exec (.devw a d) s = .next { s with
      busy := true, dly := 0,
      steps := [.cslo] ++ txBits s.wrop s.hp s.rdop ++ txBits a s.hp s.rdop ++
        txBits d s.hp s.rdop ++ [.cshi, .ckidle] }

/-- DEVR with a count of 1 to 4, from an idle machine with the token free, starts its transaction and
clears RXDATA, and changes nothing else (R200). -/
def Obligations.DevrStarts : Prop :=
  ∀ (s : State) (a k : Byte), s.busy = false → s.csN = true → 1 ≤ k.toNat → k.toNat ≤ 4 →
    exec (.devr a k) s = .next { s with
      busy := true, dly := 0, rxdata := 0,
      steps := [.cslo] ++ txBits s.rdop s.hp s.rdop ++ txBits a s.hp s.rdop ++
        (List.replicate k.toNat (rxBits s.hp)).flatten ++ [.cshi, .ckidle] }

/-- The frame of every command's meaning: whether it starts or is turned away, the pins, SR, FIRST,
RD_ARMED, the configuration and the input ports are unchanged, RXDATA too unless it is a DEVR, and the
registers HALFPER, SETTLE, PROFILE and PINS read as before. A command that records an error starts
nothing; one that starts records none. -/
def Obligations.CommandFrame : Prop :=
  ∀ (i : Instr) (s t : State), exec i s = .next t →
    t.sclk = s.sclk ∧ t.mosi = s.mosi ∧ t.csN = s.csN ∧ t.sr = s.sr ∧ t.first = s.first ∧
    t.rdArmed = s.rdArmed ∧ t.hp = s.hp ∧ t.st = s.st ∧ t.wrop = s.wrop ∧ t.rdop = s.rdop ∧
    (∀ k, t.portsAt k = s.portsAt k) ∧
    ((∀ a k, i ≠ .devr a k) → t.rxdata = s.rxdata) ∧
    (∀ r ∈ [Reg.halfper, .settle, .profile, .pins], ∀ m, t.busRead m r = s.busRead m r) ∧
    ((t.busy = s.busy ∧ t.steps = s.steps ∧ t.dly = s.dly ∧ t.rxdata = s.rxdata ∧ t.err = true) ∨
      (s.busy = false ∧ t.busy = true ∧ t.err = s.err ∧ t.errcode = s.errcode))

/-! ### Misuse errors -/

/-- R221: the codes and their causes, from a state with no error recorded. A DEVR count outside 1 to 4
is ILLEGAL; BUSY comes before every other cause, ILLEGAL before the state checks, NO_CS before
NO_READ_MODE (R223). -/
def Obligations.MisuseCodesAndPriority : Prop :=
  ∀ s : State, s.err = false →
    (∀ w, s.busy = true → cmdWrite w s = .next { s with err := true, errcode := 2 }) ∧
    (∀ r v, r ∈ [Reg.halfper, .settle, .profile] → s.busy = true →
      hostWrite r v s = .next { s with err := true, errcode := 2 }) ∧
    (∀ w e, s.busy = false → decode w = .error e →
      cmdWrite w s = .next { s with err := true, errcode := 1 }) ∧
    (∀ a k, s.busy = false → (k.toNat = 0 ∨ 4 < k.toNat) →
      exec (.devr a k) s = .next { s with err := true, errcode := 1 }) ∧
    (∀ a d k, s.busy = false → s.csN = false → 1 ≤ k.toNat → k.toNat ≤ 4 →
      exec .csa s = .next { s with err := true, errcode := 3 } ∧
      exec (.dispw a d) s = .next { s with err := true, errcode := 3 } ∧
      exec (.devw a d) s = .next { s with err := true, errcode := 3 } ∧
      exec (.devr a k) s = .next { s with err := true, errcode := 3 }) ∧
    (∀ b, s.busy = false → s.csN = true →
      exec .csd s = .next { s with err := true, errcode := 4 } ∧
      exec (.send b) s = .next { s with err := true, errcode := 4 } ∧
      exec .recv s = .next { s with err := true, errcode := 4 }) ∧
    (s.busy = false → s.csN = false → s.rdArmed = false →
      exec .recv s = .next { s with err := true, errcode := 5 })

/-- R123: at an edge where a CMD write is discarded, for any of the causes of R121, everything but
ERR and ERRCODE is as it would be had the host been idle, so a running command goes on unaffected;
the first error's code is recorded (R224). -/
def Obligations.DiscardedCommandChangesOnlyTheError : Prop :=
  ∀ (s : State) (w : Word) (c : Misuse), WritesReg s .cmd w →
    (s.busy = true ∧ c = .busy ∨
      s.busy = false ∧ (∃ e, decode w = .error e) ∧ c = .illegal ∨
      s.busy = false ∧ ∃ i, decode w = .ok i ∧ stateCheck i s = some c) →
    ∃ u, step (s.withAccess .idle) = .next u ∧
      step s = .next { u with err := true, errcode := if s.err = true then s.errcode else c.code }

/-- R225: a STATUS write with bit 8 set clears ERR and ERRCODE at its edge, also while a command
runs, the edge being otherwise that of an idle bus (R23); the next error after that is recorded;
nothing else clears them except reset, and a recorded error keeps its code until then. -/
def Obligations.ErrorsStickUntilCleared : Prop :=
  ∀ s : State,
    (∀ v : Word, WritesReg s .status v → v.getLsbD 8 = true →
      ∃ u, step (s.withAccess .idle) = .next u ∧
        step s = .next { u with err := false, errcode := 0 }) ∧
    (∀ m : Misuse, s.err = false → (s.raise m).err = true ∧ (s.raise m).errcode = m.code) ∧
    (∀ t, s.ports.rst = false → s.err = true →
      ¬ (∃ v : Word, WritesReg s .status v ∧ v.getLsbD 8 = true) →
      step s = .next t → t.err = true ∧ t.errcode = s.errcode)

/-- R226: errors do not block. With an error recorded or not, a command that passes its checks starts
in the same way. -/
def Obligations.ErrorsDoNotBlock : Prop :=
  ∀ (s : State) (i : Instr) (e : Bool) (c : BitVec 4), s.busy = false → i.WellFormed →
    stateCheck i s = none → ∃ t, exec i s = .next t ∧ t.busy = true ∧
      exec i { s with err := e, errcode := c } = .next { t with err := e, errcode := c }

/-! ### Host registers -/

/-- R23, R27, R29, R61: what a host read of each slot returns, bit by bit. -/
def Obligations.RegisterReadLayout : Prop :=
  ∀ (s : State) (m : Bool) (k : Nat), k < 32 →
    (s.busRead m .status).getLsbD k =
      (if k = 0 then s.busy else if k = 1 then !s.csN else if k = 2 then s.rdArmed
       else if k = 3 then s.first else if k = 8 then s.err
       else if 12 ≤ k ∧ k ≤ 15 then s.errcode.getLsbD (k - 12) else false) ∧
    s.busRead m .cmd = 0 ∧ s.busRead m .rxdata = s.rxdata ∧
    (s.busRead m .halfper).getLsbD k = (if k < 16 then s.hp.getLsbD k else false) ∧
    (s.busRead m .settle).getLsbD k = (if k < 16 then s.st.getLsbD k else false) ∧
    (s.busRead m .profile).getLsbD k =
      (if k < 8 then s.wrop.getLsbD k else if k < 16 then s.rdop.getLsbD (k - 8) else false) ∧
    (s.busRead m .pins).getLsbD k =
      (if k = 0 then s.sclk else if k = 1 then s.mosi else if k = 2 then s.csN
       else if k = 3 then m else false) ∧
    s.busRead m .reserved = 0

/-- R63: `bus_rdata` is the addressed register while a read is selected and 0 otherwise; a read and an
idle bus are the same edge for the machine. -/
def Obligations.ReadsChangeNoState : Prop :=
  ∀ s : State,
    (∀ r : Reg, s.ports.busSel = true → s.ports.busWe = false → s.ports.busAddr = r.slot →
      s.busRdata = s.busRead s.ports.miso r) ∧
    (s.ports.busSel = false ∨ s.ports.busWe = true → s.busRdata = 0) ∧
    (s.ports.rst = false → s.ports.busSel = false ∨ s.ports.busWe = false →
      step s = step (s.withAccess .idle))

/-- R25, R29, R30: writes to RXDATA, PINS and slot 7 are ignored and raise no error, and so is a
STATUS write with bit 8 clear (R23). -/
def Obligations.IgnoredWrites : Prop :=
  ∀ (s : State) (v : Word),
    (∀ r : Reg, r ∈ [Reg.rxdata, .pins, .reserved] → WritesReg s r v →
      step s = step (s.withAccess .idle)) ∧
    (WritesReg s .status v → v.getLsbD 8 = false → step s = step (s.withAccess .idle))

/-- R245, R220: an edge without a host write and without reset. An idle machine does not change:
only the cycle is over. While a command runs the sequencer advances, and no error is raised or
cleared and no configuration register changes. -/
def Obligations.EdgeWithoutAWrite : Prop :=
  ∀ s : State, s.ports.rst = false → (s.ports.busSel = false ∨ s.ports.busWe = false) →
    (s.busy = false → step s = .next { s with inputs := s.inputs.tail, edge := s.edge + 1 }) ∧
    (s.busy = true → step s = .next (s.advance s.ports.miso).nextCycle ∧
      ∃ t, step s = .next t ∧ t.err = s.err ∧ t.errcode = s.errcode ∧ t.hp = s.hp ∧ t.st = s.st ∧
        t.wrop = s.wrop ∧ t.rdop = s.rdop)

/-- R26: HALFPER reads HP with zeros above and is 0xFFFF after reset. A write while idle sets HP to
the low 16 bits, a zero stored as 1, and changes nothing else; while a command runs it is discarded
with `Misuse(BUSY)` and the command goes on. -/
def Obligations.HalfperWrite : Prop :=
  State.reset.hp = 0xFFFF ∧ (∀ (s : State) (m : Bool), s.busRead m .halfper = s.hp.setWidth 32) ∧
  ∀ (s : State) (v : Word), WritesReg s .halfper v →
    (s.busy = false → step s = .next { s with
      hp := if v.extractLsb' 0 16 = 0 then 1 else v.extractLsb' 0 16,
      inputs := s.inputs.tail, edge := s.edge + 1 }) ∧
    (s.busy = true → ∃ u, step (s.withAccess .idle) = .next u ∧
      step s = .next { u with err := true, errcode := if s.err = true then s.errcode else 2 })

/-- R28: SETTLE reads ST with zeros above and is 0xFFFF after reset. A write while idle sets ST to
the low 16 bits, 0 included, and changes nothing else; while a command runs it is discarded with
`Misuse(BUSY)` and the command goes on. -/
def Obligations.SettleWrite : Prop :=
  State.reset.st = 0xFFFF ∧ (∀ (s : State) (m : Bool), s.busRead m .settle = s.st.setWidth 32) ∧
  ∀ (s : State) (v : Word), WritesReg s .settle v →
    (s.busy = false → step s = .next { s with
      st := v.extractLsb' 0 16, inputs := s.inputs.tail, edge := s.edge + 1 }) ∧
    (s.busy = true → ∃ u, step (s.withAccess .idle) = .next u ∧
      step s = .next { u with err := true, errcode := if s.err = true then s.errcode else 2 })

/-- R27: PROFILE reads RDOP and WROP with zeros above, and the opcodes 0x0B and 0x0A after reset. A
write while idle sets WROP and RDOP, and changes nothing else; while a command runs it is discarded
with `Misuse(BUSY)` and the command goes on. -/
def Obligations.ProfileWrite : Prop :=
  State.reset.wrop = 0x0A ∧ State.reset.rdop = 0x0B ∧ (∀ (s : State) (m : Bool),
    s.busRead m .profile = s.rdop.setWidth 32 <<< 8 ||| s.wrop.setWidth 32) ∧
  ∀ (s : State) (v : Word), WritesReg s .profile v →
    (s.busy = false → step s = .next { s with
      wrop := v.extractLsb' 0 8, rdop := v.extractLsb' 8 8,
      inputs := s.inputs.tail, edge := s.edge + 1 }) ∧
    (s.busy = true → ∃ u, step (s.withAccess .idle) = .next u ∧
      step s = .next { u with err := true, errcode := if s.err = true then s.errcode else 2 })

/-! ### The sequencer -/

/-- R124: the action and wait of each step, at an edge where it is the next to run and no error can
arise (the host is idle). The zero-wait steps TXEND and RXEND stand last, so the command completes at
their edge (R126). -/
def Obligations.StepActionsAndWaits : Prop :=
  ∀ (s u : State) (rest : List SeqStep) (b rd : Byte) (h : Count) (i : Fin 8), s.busy = true →
    s.dly = 0 → s.ports.rst = false → s.ports.busSel = false → h ≠ 0 →
    u = { s with steps := rest, inputs := s.inputs.tail, edge := s.edge + 1 } →
    (s.steps = .cslo :: rest →
      step s = .next { u with csN := false, first := true, rdArmed := false, dly := 0 }) ∧
    (s.steps = .cshi :: rest →
      step s = .next { u with csN := true, first := false, rdArmed := false, dly := 0 }) ∧
    (s.steps = .ckidle :: rest → step s = .next { u with sclk := false, dly := 0 }) ∧
    (s.steps = .txlo i b h :: rest → step s = .next { u with
      mosi := if i = 0 then b.getLsbD 7 else s.sr.getLsbD 7,
      sr := if i = 0 then b.extractLsb' 0 7 ++ 0#1 else s.sr.extractLsb' 0 7 ++ 0#1,
      sclk := false, dly := h - 1 }) ∧
    (s.steps = .txhi h :: rest → step s = .next { u with sclk := true, dly := h - 1 }) ∧
    (s.steps = .rxlo i h :: rest → step s = .next { u with
      sr := if i = 0 then 0 else s.sr, sclk := false, dly := h - 1 }) ∧
    (s.steps = .rxhi h :: rest → step s = .next { u with
      sr := s.sr.extractLsb' 0 7 ++ BitVec.ofBool s.ports.miso, sclk := true, dly := h - 1 }) ∧
    (s.steps = .hold h :: rest → step s = .next { u with dly := h - 1 }) ∧
    (s.steps = [.txend b rd] → rest = [] → step s = .next { u with
      rdArmed := if s.first = true then b == rd else s.rdArmed, first := false,
      busy := false, dly := 0 }) ∧
    (s.steps = [.rxend] → rest = [] → step s = .next { u with
      rxdata := s.rxdata.extractLsb' 0 24 ++ s.sr, first := false, busy := false, dly := 0 })

/-- R129: a hold of `n` cycles keeps every pin for exactly `n` cycles. From the edge a step with wait
`n >= 1` runs, the pins are the same after each of the edges up to the `n`-th, where the delay counter
is 0 and the next step is due at the edge after. -/
def Obligations.HoldKeepsEveryPin : Prop :=
  ∀ (s : State) (x : SeqStep) (rest : List SeqStep), s.busy = true → s.dly = 0 →
    s.steps = x :: rest → x.wait ≠ 0 → NoReset x.wait.toNat s →
    ∃ t, step s = .next t ∧
      (∀ k, 1 ≤ k → k ≤ x.wait.toNat → ∃ u, runEdges k s = .next u ∧ u.busy = true ∧
        u.sclk = t.sclk ∧ u.mosi = t.mosi ∧ u.csN = t.csN ∧ u.steps = rest ∧
        u.dly.toNat = x.wait.toNat - k)

/-- R127: the step schedule. With a command running, the next step is due when DLY edges have passed
and each later step its predecessor's wait after it, zero-wait steps sharing the edge. After each edge
up to the completion edge the machine is what the steps due by then have made of it, whatever the host
does, and BUSY falls at the completion edge and not before. -/
def Obligations.StepsRunOnSchedule : Prop :=
  ∀ (s : State) (n : Nat), s.busy = true → n < s.dly.toNat + sumWaits s.steps + 1 →
    NoReset (n + 1) s →
    ∃ u, runEdges (n + 1) s = .next u ∧
      SameDatapath u (ranBy (misoOf s) n s.dly.toNat s.steps s) ∧
      u.busy = decide (n + 1 < s.dly.toNat + sumWaits s.steps + 1)

/-- R33 as the detailed rules R128, R130 and R180 let it hold (log 6): in a state of the invariant,
BUSY = 0 means that no step is left; and where a running command has no step left, nothing of it
remains but the wait of its last step, through which no pin, flag or register of the datapath
changes, and BUSY falls when DLY + 1 edges have passed. -/
def Obligations.EmptyStepsLeaveOnlyTheWait : Prop :=
  ∀ s : State, Inv s → s.steps = [] → NoReset (s.dly.toNat + 1) s → s.busy = true →
    (∀ k, k ≤ s.dly.toNat → ∃ t, runEdges k s = .next t ∧ t.busy = true ∧ t.steps = [] ∧
      SameDatapath t s) ∧
    (∃ t, runEdges (s.dly.toNat + 1) s = .next t ∧ t.busy = false ∧ t.steps = [] ∧ t.dly = 0 ∧
      SameDatapath t s)

/-- R131: the duration of every command. Accepted at an edge, it is busy for D + 1 cycles and
completes D + 1 edges later. -/
def Obligations.CommandDurations : Prop :=
  ∀ (s : State) (i : Instr), i.WellFormed → s.busy = false → stateCheck i s = none → Presents s i →
    NoReset (duration i s + 2) s →
    (∀ k, 1 ≤ k → k ≤ duration i s + 1 → ∃ u, runEdges k s = .next u ∧ u.busy = true) ∧
    (∃ u, runEdges (duration i s + 2) s = .next u ∧ u.busy = false ∧ u.steps = [] ∧ u.dly = 0)

/-! ### What each command does, from its acceptance to its completion -/

/-- CSA (R150), run: CS_N falls and FIRST is set one edge after acceptance, and the command completes
one edge later with CS_N = 0, SCLK, MOSI and every register but STATUS unchanged. -/
def Obligations.CsaOpensATransaction : Prop :=
  ∀ s : State, s.busy = false → s.csN = true → Presents s .csa → NoReset 3 s →
    (∃ t, runEdges 1 s = .next t ∧ t.busy = true ∧ t.csN = true) ∧
    (∃ t, runEdges 2 s = .next t ∧ t.busy = true ∧ t.csN = false ∧ t.first = true ∧
      t.rdArmed = false) ∧
    (∃ t, runEdges 3 s = .next t ∧ t.busy = false ∧ t.csN = false ∧ t.first = true ∧
      t.rdArmed = false ∧ t.sclk = s.sclk ∧ t.mosi = s.mosi ∧ t.rxdata = s.rxdata ∧ t.sr = s.sr ∧
      t.hp = s.hp ∧ t.st = s.st ∧ t.wrop = s.wrop ∧ t.rdop = s.rdop)

/-- CSD (R151), run: CS_N rises one edge after acceptance, SCLK falls at the next, and the command
completes one edge later; MOSI keeps the last bit sent and every register but STATUS is unchanged. -/
def Obligations.CsdClosesTheTransaction : Prop :=
  ∀ s : State, s.busy = false → s.csN = false → Presents s .csd → NoReset 4 s →
    (∃ t, runEdges 2 s = .next t ∧ t.busy = true ∧ t.csN = true ∧ t.sclk = s.sclk ∧
      t.first = false ∧ t.rdArmed = false) ∧
    (∃ t, runEdges 3 s = .next t ∧ t.busy = true ∧ t.csN = true ∧ t.sclk = false) ∧
    (∃ t, runEdges 4 s = .next t ∧ t.busy = false ∧ t.csN = true ∧ t.sclk = false ∧
      t.mosi = s.mosi ∧ t.first = false ∧ t.rdArmed = false ∧ t.rxdata = s.rxdata ∧ t.sr = s.sr ∧
      t.hp = s.hp ∧ t.st = s.st ∧ t.wrop = s.wrop ∧ t.rdop = s.rdop)

/-- SEND (R160, R132), run: bit `i` of the byte, most significant first, is on MOSI with SCLK low
for H cycles and then with SCLK high for H cycles; CS_N stays low throughout. -/
def Obligations.SendDrivesBitsMsbFirst : Prop :=
  ∀ (s : State) (b : Byte) (i : Fin 8) (k : Nat), s.busy = false → s.csN = false →
    Presents s (.send b) → NoReset (16 * s.hp.toNat + 2) s →
    (k < s.hp.toNat → ∃ t, runEdges (2 + 2 * i.val * s.hp.toNat + k) s = .next t ∧
      t.mosi = b.getLsbD (7 - i.val) ∧ t.sclk = false ∧ t.csN = false) ∧
    (k < s.hp.toNat → ∃ t, runEdges (2 + (2 * i.val + 1) * s.hp.toNat + k) s = .next t ∧
      t.mosi = b.getLsbD (7 - i.val) ∧ t.sclk = true ∧ t.csN = false)

/-- SEND's end (R160, R161, R163): SCLK = 1, MOSI = b[0], SR = 0; the first byte of a transaction arms
reads exactly when it is the read opcode, a later byte leaves RD_ARMED as it was. -/
def Obligations.SendArmsReadsOnFirstByte : Prop :=
  ∀ (s : State) (b : Byte), s.busy = false → s.csN = false → Presents s (.send b) →
    NoReset (16 * s.hp.toNat + 2) s →
    ∃ t, runEdges (16 * s.hp.toNat + 2) s = .next t ∧ t.busy = false ∧ t.sclk = true ∧
      t.mosi = b.getLsbD 0 ∧ t.csN = false ∧ t.sr = 0 ∧ t.first = false ∧
      t.rdArmed = (if s.first = true then b == s.rdop else s.rdArmed) ∧
      t.rxdata = s.rxdata ∧ t.hp = s.hp ∧ t.st = s.st ∧ t.wrop = s.wrop ∧ t.rdop = s.rdop

/-- RECV (R165, R167, R168), run: the byte assembled most significant bit first from MISO at the eight
sample edges enters RXDATA at its low end; MOSI and RD_ARMED are unchanged and SCLK ends high. Until
completion a read of RXDATA returns the value from before. -/
def Obligations.RecvAssemblesTheSampledByte : Prop :=
  ∀ s : State, s.busy = false → s.csN = false → s.rdArmed = true → Presents s .recv →
    NoReset (16 * s.hp.toNat + 2) s →
    (∀ k, k ≤ 16 * s.hp.toNat + 1 → ∃ t, runEdges k s = .next t ∧ t.rxdata = s.rxdata) ∧
    ∃ t, runEdges (16 * s.hp.toNat + 2) s = .next t ∧ t.busy = false ∧
      (∀ i : Fin 8, t.rxdata.getLsbD (7 - i.val) = misoOf s (1 + (2 * i.val + 1) * s.hp.toNat)) ∧
      t.rxdata.extractLsb' 8 24 = s.rxdata.extractLsb' 0 24 ∧
      t.sclk = true ∧ t.mosi = s.mosi ∧ t.csN = false ∧ t.rdArmed = true ∧ t.first = false ∧
      t.hp = s.hp ∧ t.st = s.st ∧ t.wrop = s.wrop ∧ t.rdop = s.rdop

/-- WAIT (R180), run: at no edge up to completion does WAIT change a pin or a register other than
BUSY; ERR and ERRCODE, which a host write of the meantime can set, are not spoken of. -/
def Obligations.WaitHoldsEverything : Prop :=
  ∀ (s : State) (n : Count) (k : Nat), s.busy = false → Presents s (.wait n) →
    NoReset (n.toNat + 2) s → k ≤ n.toNat + 2 →
    ∃ t, runEdges k s = .next t ∧ SameDatapath t s ∧
      (t.busy = decide (1 ≤ k ∧ k ≤ n.toNat + 1))

/-- DEVR (R200, R201), run: RXDATA ends with the `k` received bytes, the first most significant, zeros
above, each bit sampled at its edge; CS_N and SCLK are back at their idle levels and MOSI holds the
address's last bit. -/
def Obligations.DevrReturnsTheBytesRead : Prop :=
  ∀ (s : State) (a k : Byte), s.busy = false → s.csN = true → 1 ≤ k.toNat → k.toNat ≤ 4 →
    Presents s (.devr a k) → NoReset ((32 + 16 * k.toNat) * s.hp.toNat + 5) s →
    ∃ t, runEdges ((32 + 16 * k.toNat) * s.hp.toNat + 5) s = .next t ∧ t.busy = false ∧
      (∀ (j : Fin 4) (i : Fin 8), j.val < k.toNat →
        t.rxdata.getLsbD (8 * (k.toNat - 1 - j.val) + (7 - i.val)) =
          misoOf s (2 + 32 * s.hp.toNat + 16 * j.val * s.hp.toNat +
            (2 * i.val + 1) * s.hp.toNat)) ∧
      (∀ m, 8 * k.toNat ≤ m → t.rxdata.getLsbD m = false) ∧
      t.sclk = false ∧ t.csN = true ∧ t.mosi = a.getLsbD 0 ∧ t.first = false ∧ t.rdArmed = false ∧
      t.hp = s.hp ∧ t.st = s.st ∧ t.wrop = s.wrop ∧ t.rdop = s.rdop

/-- DISPW (R191): at the 16 rising edges of SCLK within a DISPW started from idle, MOSI carries the
frame `{a, d}` from bit 15 down to bit 0, with the settle hold making no difference; the machine
ends idle with RXDATA, the errors and the configuration as before and MOSI at the last bit. The
script's timing is log 17's. -/
def Obligations.DispwSendsItsFrame : Prop :=
  ∀ (s : State) (a d : Byte), s.busy = false → s.csN = true → s.sclk = false → s.hp ≠ 0 →
    ∃ x, runScript [.doCmd (.dispw a d)] s = .next x ∧
      mosiAtRise s x.visited = msbFirst a ++ msbFirst d ∧
      x.now.busy = false ∧ x.now.csN = true ∧ x.now.sclk = false ∧ x.now.mosi = d.getLsbD 0 ∧
      x.now.first = false ∧ x.now.rdArmed = false ∧ x.now.rxdata = s.rxdata ∧
      x.now.err = s.err ∧ x.now.errcode = s.errcode ∧ x.now.hp = s.hp ∧ x.now.st = s.st ∧
      x.now.wrop = s.wrop ∧ x.now.rdop = s.rdop

/-- DEVW (R195): at the 24 rising edges of SCLK within a DEVW started from idle, MOSI carries the
write opcode, the address and the data, each most significant bit first; the machine ends idle with
RXDATA, the errors and the configuration as before and MOSI at the last bit. The script's timing is
log 17's. -/
def Obligations.DevwSendsItsFrame : Prop :=
  ∀ (s : State) (a d : Byte), s.busy = false → s.csN = true → s.sclk = false → s.hp ≠ 0 →
    ∃ x, runScript [.doCmd (.devw a d)] s = .next x ∧
      mosiAtRise s x.visited = msbFirst s.wrop ++ msbFirst a ++ msbFirst d ∧
      x.now.busy = false ∧ x.now.csN = true ∧ x.now.sclk = false ∧ x.now.mosi = d.getLsbD 0 ∧
      x.now.first = false ∧ x.now.rdArmed = false ∧ x.now.rxdata = s.rxdata ∧
      x.now.err = s.err ∧ x.now.errcode = s.errcode ∧ x.now.hp = s.hp ∧ x.now.st = s.st ∧
      x.now.wrop = s.wrop ∧ x.now.rdop = s.rdop

/-- R205 for DISPW: one DISPW and the primitive sequence `csa; send a; wait S; send d; csd`, each
command followed by a sync, put the same values on MOSI at the same rising edges of SCLK and leave the
machine in the same state. The scripts' timing is log 17's. -/
def Obligations.DispwEqualsItsPrimitives : Prop :=
  ∀ (s : State) (a d : Byte), s.busy = false → s.csN = true → s.sclk = false → s.hp ≠ 0 →
    ∃ x y, runScript [.doCmd (.dispw a d)] s = .next x ∧
      runScript [.doCmd .csa, .doCmd (.send a), .doCmd (.wait s.st), .doCmd (.send d), .doCmd .csd]
        s = .next y ∧
      mosiAtRise s x.visited = mosiAtRise s y.visited ∧ SameCommand x.now y.now ∧
      x.now.err = y.now.err ∧ x.now.errcode = y.now.errcode

/-- `sync` (R98, R73) ends, and it ends with BUSY = 0: every earlier accepted command has reached its
completion edge. The loop's bound is log 17's. -/
def Obligations.SyncEndsIdle : Prop :=
  ∀ x : Session, ∃ y, runStmt x .sync = .next y ∧ y.now.busy = false ∧ y.reads = x.reads

/-! ### Beside the machine -/

/-- R65: a byte-addressed host's request reaches the slot its address bits [4:2] give when it is an
aligned access of 4 bytes, and every other request is refused. -/
def Obligations.BridgeRefusesOtherAccesses : Prop :=
  (∀ r : Reg, bridgeAccess (BitVec.ofNat 32 r.byteOffset) 4 = .next r) ∧
  (∀ (a : Word) (n : Nat), n ≠ 4 ∨ a.toNat % 4 ≠ 0 → bridgeAccess a n = .refused .noSuchAccess) ∧
  (∀ a : Word, a.toNat % 4 = 0 →
    bridgeAccess a 4 = .next (Reg.ofSlot (BitVec.ofNat 3 (a.toNat / 4))))

/-- R97: for every command with operands, the assembler's word is the command's encoding where the
operands are in range, and an operand out of range is refused. -/
def Obligations.AssemblerRefusesOutOfRange : Prop :=
  ∀ m n : Nat,
    (m < 256 → assembleOperands "send" [m] = some (encode (.send (BitVec.ofNat 8 m)))) ∧
    (256 ≤ m → assembleOperands "send" [m] = none) ∧
    (m < 65536 → assembleOperands "wait" [m] = some (encode (.wait (BitVec.ofNat 16 m)))) ∧
    (65536 ≤ m → assembleOperands "wait" [m] = none) ∧
    (m < 256 → n < 256 → assembleOperands "dispw" [m, n] =
      some (encode (.dispw (BitVec.ofNat 8 m) (BitVec.ofNat 8 n)))) ∧
    (256 ≤ m ∨ 256 ≤ n → assembleOperands "dispw" [m, n] = none) ∧
    (m < 256 → n < 256 → assembleOperands "devw" [m, n] =
      some (encode (.devw (BitVec.ofNat 8 m) (BitVec.ofNat 8 n)))) ∧
    (256 ≤ m ∨ 256 ≤ n → assembleOperands "devw" [m, n] = none) ∧
    (m < 256 → 1 ≤ n → n ≤ 4 → assembleOperands "devr" [m, n] =
      some (encode (.devr (BitVec.ofNat 8 m) (BitVec.ofNat 8 n)))) ∧
    (256 ≤ m ∨ n = 0 ∨ 4 < n → assembleOperands "devr" [m, n] = none)
end

