-- ==== Sys2Proof/Laws/State.lean ====
section
/-! SUPPORT. One lemma per field per update of the state, true by `rfl`: what each named update writes,
and that it leaves every other field alone. No later proof unfolds a record update. -/

namespace Sys2Proof.Machine.State

variable (s : State)

/-! ### `raise` -/

@[simp] theorem raise_sclk (m : Misuse) : (s.raise m).sclk = s.sclk := rfl
@[simp] theorem raise_mosi (m : Misuse) : (s.raise m).mosi = s.mosi := rfl
@[simp] theorem raise_csN (m : Misuse) : (s.raise m).csN = s.csN := rfl
@[simp] theorem raise_busy (m : Misuse) : (s.raise m).busy = s.busy := rfl
@[simp] theorem raise_rdArmed (m : Misuse) : (s.raise m).rdArmed = s.rdArmed := rfl
@[simp] theorem raise_first (m : Misuse) : (s.raise m).first = s.first := rfl
@[simp] theorem raise_err (m : Misuse) : (s.raise m).err = true := rfl
@[simp] theorem raise_errcode (m : Misuse) : (s.raise m).errcode = (if s.err then s.errcode else m.code) := rfl
@[simp] theorem raise_rxdata (m : Misuse) : (s.raise m).rxdata = s.rxdata := rfl
@[simp] theorem raise_hp (m : Misuse) : (s.raise m).hp = s.hp := rfl
@[simp] theorem raise_st (m : Misuse) : (s.raise m).st = s.st := rfl
@[simp] theorem raise_wrop (m : Misuse) : (s.raise m).wrop = s.wrop := rfl
@[simp] theorem raise_rdop (m : Misuse) : (s.raise m).rdop = s.rdop := rfl
@[simp] theorem raise_steps (m : Misuse) : (s.raise m).steps = s.steps := rfl
@[simp] theorem raise_dly (m : Misuse) : (s.raise m).dly = s.dly := rfl
@[simp] theorem raise_sr (m : Misuse) : (s.raise m).sr = s.sr := rfl
@[simp] theorem raise_inputs (m : Misuse) : (s.raise m).inputs = s.inputs := rfl
@[simp] theorem raise_edge (m : Misuse) : (s.raise m).edge = s.edge := rfl

/-! ### `clearError` -/

@[simp] theorem clearError_sclk : (s.clearError).sclk = s.sclk := rfl
@[simp] theorem clearError_mosi : (s.clearError).mosi = s.mosi := rfl
@[simp] theorem clearError_csN : (s.clearError).csN = s.csN := rfl
@[simp] theorem clearError_busy : (s.clearError).busy = s.busy := rfl
@[simp] theorem clearError_rdArmed : (s.clearError).rdArmed = s.rdArmed := rfl
@[simp] theorem clearError_first : (s.clearError).first = s.first := rfl
@[simp] theorem clearError_err : (s.clearError).err = false := rfl
@[simp] theorem clearError_errcode : (s.clearError).errcode = 0 := rfl
@[simp] theorem clearError_rxdata : (s.clearError).rxdata = s.rxdata := rfl
@[simp] theorem clearError_hp : (s.clearError).hp = s.hp := rfl
@[simp] theorem clearError_st : (s.clearError).st = s.st := rfl
@[simp] theorem clearError_wrop : (s.clearError).wrop = s.wrop := rfl
@[simp] theorem clearError_rdop : (s.clearError).rdop = s.rdop := rfl
@[simp] theorem clearError_steps : (s.clearError).steps = s.steps := rfl
@[simp] theorem clearError_dly : (s.clearError).dly = s.dly := rfl
@[simp] theorem clearError_sr : (s.clearError).sr = s.sr := rfl
@[simp] theorem clearError_inputs : (s.clearError).inputs = s.inputs := rfl
@[simp] theorem clearError_edge : (s.clearError).edge = s.edge := rfl

/-! ### `arm` -/

@[simp] theorem arm_sclk (b rdop : Byte) : (s.arm b rdop).sclk = s.sclk := rfl
@[simp] theorem arm_mosi (b rdop : Byte) : (s.arm b rdop).mosi = s.mosi := rfl
@[simp] theorem arm_csN (b rdop : Byte) : (s.arm b rdop).csN = s.csN := rfl
@[simp] theorem arm_busy (b rdop : Byte) : (s.arm b rdop).busy = s.busy := rfl
@[simp] theorem arm_rdArmed (b rdop : Byte) : (s.arm b rdop).rdArmed = (if s.first then b == rdop else s.rdArmed) := rfl
@[simp] theorem arm_first (b rdop : Byte) : (s.arm b rdop).first = false := rfl
@[simp] theorem arm_err (b rdop : Byte) : (s.arm b rdop).err = s.err := rfl
@[simp] theorem arm_errcode (b rdop : Byte) : (s.arm b rdop).errcode = s.errcode := rfl
@[simp] theorem arm_rxdata (b rdop : Byte) : (s.arm b rdop).rxdata = s.rxdata := rfl
@[simp] theorem arm_hp (b rdop : Byte) : (s.arm b rdop).hp = s.hp := rfl
@[simp] theorem arm_st (b rdop : Byte) : (s.arm b rdop).st = s.st := rfl
@[simp] theorem arm_wrop (b rdop : Byte) : (s.arm b rdop).wrop = s.wrop := rfl
@[simp] theorem arm_rdop (b rdop : Byte) : (s.arm b rdop).rdop = s.rdop := rfl
@[simp] theorem arm_steps (b rdop : Byte) : (s.arm b rdop).steps = s.steps := rfl
@[simp] theorem arm_dly (b rdop : Byte) : (s.arm b rdop).dly = s.dly := rfl
@[simp] theorem arm_sr (b rdop : Byte) : (s.arm b rdop).sr = s.sr := rfl
@[simp] theorem arm_inputs (b rdop : Byte) : (s.arm b rdop).inputs = s.inputs := rfl
@[simp] theorem arm_edge (b rdop : Byte) : (s.arm b rdop).edge = s.edge := rfl

/-! ### `openTxn` -/

@[simp] theorem openTxn_sclk : (s.openTxn).sclk = s.sclk := rfl
@[simp] theorem openTxn_mosi : (s.openTxn).mosi = s.mosi := rfl
@[simp] theorem openTxn_csN : (s.openTxn).csN = false := rfl
@[simp] theorem openTxn_busy : (s.openTxn).busy = s.busy := rfl
@[simp] theorem openTxn_rdArmed : (s.openTxn).rdArmed = false := rfl
@[simp] theorem openTxn_first : (s.openTxn).first = true := rfl
@[simp] theorem openTxn_err : (s.openTxn).err = s.err := rfl
@[simp] theorem openTxn_errcode : (s.openTxn).errcode = s.errcode := rfl
@[simp] theorem openTxn_rxdata : (s.openTxn).rxdata = s.rxdata := rfl
@[simp] theorem openTxn_hp : (s.openTxn).hp = s.hp := rfl
@[simp] theorem openTxn_st : (s.openTxn).st = s.st := rfl
@[simp] theorem openTxn_wrop : (s.openTxn).wrop = s.wrop := rfl
@[simp] theorem openTxn_rdop : (s.openTxn).rdop = s.rdop := rfl
@[simp] theorem openTxn_steps : (s.openTxn).steps = s.steps := rfl
@[simp] theorem openTxn_dly : (s.openTxn).dly = s.dly := rfl
@[simp] theorem openTxn_sr : (s.openTxn).sr = s.sr := rfl
@[simp] theorem openTxn_inputs : (s.openTxn).inputs = s.inputs := rfl
@[simp] theorem openTxn_edge : (s.openTxn).edge = s.edge := rfl

/-! ### `closeTxn` -/

@[simp] theorem closeTxn_sclk : (s.closeTxn).sclk = s.sclk := rfl
@[simp] theorem closeTxn_mosi : (s.closeTxn).mosi = s.mosi := rfl
@[simp] theorem closeTxn_csN : (s.closeTxn).csN = true := rfl
@[simp] theorem closeTxn_busy : (s.closeTxn).busy = s.busy := rfl
@[simp] theorem closeTxn_rdArmed : (s.closeTxn).rdArmed = false := rfl
@[simp] theorem closeTxn_first : (s.closeTxn).first = false := rfl
@[simp] theorem closeTxn_err : (s.closeTxn).err = s.err := rfl
@[simp] theorem closeTxn_errcode : (s.closeTxn).errcode = s.errcode := rfl
@[simp] theorem closeTxn_rxdata : (s.closeTxn).rxdata = s.rxdata := rfl
@[simp] theorem closeTxn_hp : (s.closeTxn).hp = s.hp := rfl
@[simp] theorem closeTxn_st : (s.closeTxn).st = s.st := rfl
@[simp] theorem closeTxn_wrop : (s.closeTxn).wrop = s.wrop := rfl
@[simp] theorem closeTxn_rdop : (s.closeTxn).rdop = s.rdop := rfl
@[simp] theorem closeTxn_steps : (s.closeTxn).steps = s.steps := rfl
@[simp] theorem closeTxn_dly : (s.closeTxn).dly = s.dly := rfl
@[simp] theorem closeTxn_sr : (s.closeTxn).sr = s.sr := rfl
@[simp] theorem closeTxn_inputs : (s.closeTxn).inputs = s.inputs := rfl
@[simp] theorem closeTxn_edge : (s.closeTxn).edge = s.edge := rfl

/-! ### `nextCycle` -/

@[simp] theorem nextCycle_sclk : (s.nextCycle).sclk = s.sclk := rfl
@[simp] theorem nextCycle_mosi : (s.nextCycle).mosi = s.mosi := rfl
@[simp] theorem nextCycle_csN : (s.nextCycle).csN = s.csN := rfl
@[simp] theorem nextCycle_busy : (s.nextCycle).busy = s.busy := rfl
@[simp] theorem nextCycle_rdArmed : (s.nextCycle).rdArmed = s.rdArmed := rfl
@[simp] theorem nextCycle_first : (s.nextCycle).first = s.first := rfl
@[simp] theorem nextCycle_err : (s.nextCycle).err = s.err := rfl
@[simp] theorem nextCycle_errcode : (s.nextCycle).errcode = s.errcode := rfl
@[simp] theorem nextCycle_rxdata : (s.nextCycle).rxdata = s.rxdata := rfl
@[simp] theorem nextCycle_hp : (s.nextCycle).hp = s.hp := rfl
@[simp] theorem nextCycle_st : (s.nextCycle).st = s.st := rfl
@[simp] theorem nextCycle_wrop : (s.nextCycle).wrop = s.wrop := rfl
@[simp] theorem nextCycle_rdop : (s.nextCycle).rdop = s.rdop := rfl
@[simp] theorem nextCycle_steps : (s.nextCycle).steps = s.steps := rfl
@[simp] theorem nextCycle_dly : (s.nextCycle).dly = s.dly := rfl
@[simp] theorem nextCycle_sr : (s.nextCycle).sr = s.sr := rfl
@[simp] theorem nextCycle_inputs : (s.nextCycle).inputs = s.inputs.tail := rfl
@[simp] theorem nextCycle_edge : (s.nextCycle).edge = s.edge + 1 := rfl

/-! ### `withAccess` -/

@[simp] theorem withAccess_sclk (a : BusAccess) : (s.withAccess a).sclk = s.sclk := rfl
@[simp] theorem withAccess_mosi (a : BusAccess) : (s.withAccess a).mosi = s.mosi := rfl
@[simp] theorem withAccess_csN (a : BusAccess) : (s.withAccess a).csN = s.csN := rfl
@[simp] theorem withAccess_busy (a : BusAccess) : (s.withAccess a).busy = s.busy := rfl
@[simp] theorem withAccess_rdArmed (a : BusAccess) : (s.withAccess a).rdArmed = s.rdArmed := rfl
@[simp] theorem withAccess_first (a : BusAccess) : (s.withAccess a).first = s.first := rfl
@[simp] theorem withAccess_err (a : BusAccess) : (s.withAccess a).err = s.err := rfl
@[simp] theorem withAccess_errcode (a : BusAccess) : (s.withAccess a).errcode = s.errcode := rfl
@[simp] theorem withAccess_rxdata (a : BusAccess) : (s.withAccess a).rxdata = s.rxdata := rfl
@[simp] theorem withAccess_hp (a : BusAccess) : (s.withAccess a).hp = s.hp := rfl
@[simp] theorem withAccess_st (a : BusAccess) : (s.withAccess a).st = s.st := rfl
@[simp] theorem withAccess_wrop (a : BusAccess) : (s.withAccess a).wrop = s.wrop := rfl
@[simp] theorem withAccess_rdop (a : BusAccess) : (s.withAccess a).rdop = s.rdop := rfl
@[simp] theorem withAccess_steps (a : BusAccess) : (s.withAccess a).steps = s.steps := rfl
@[simp] theorem withAccess_dly (a : BusAccess) : (s.withAccess a).dly = s.dly := rfl
@[simp] theorem withAccess_sr (a : BusAccess) : (s.withAccess a).sr = s.sr := rfl
@[simp] theorem withAccess_inputs (a : BusAccess) : (s.withAccess a).inputs = s.ports.withAccess a :: s.inputs.tail := rfl
@[simp] theorem withAccess_edge (a : BusAccess) : (s.withAccess a).edge = s.edge := rfl

/-! ### `accept` -/

@[simp] theorem accept_sclk (l : List SeqStep) : (s.accept l).sclk = s.sclk := rfl
@[simp] theorem accept_mosi (l : List SeqStep) : (s.accept l).mosi = s.mosi := rfl
@[simp] theorem accept_csN (l : List SeqStep) : (s.accept l).csN = s.csN := rfl
@[simp] theorem accept_busy (l : List SeqStep) : (s.accept l).busy = true := rfl
@[simp] theorem accept_rdArmed (l : List SeqStep) : (s.accept l).rdArmed = s.rdArmed := rfl
@[simp] theorem accept_first (l : List SeqStep) : (s.accept l).first = s.first := rfl
@[simp] theorem accept_err (l : List SeqStep) : (s.accept l).err = s.err := rfl
@[simp] theorem accept_errcode (l : List SeqStep) : (s.accept l).errcode = s.errcode := rfl
@[simp] theorem accept_rxdata (l : List SeqStep) : (s.accept l).rxdata = s.rxdata := rfl
@[simp] theorem accept_hp (l : List SeqStep) : (s.accept l).hp = s.hp := rfl
@[simp] theorem accept_st (l : List SeqStep) : (s.accept l).st = s.st := rfl
@[simp] theorem accept_wrop (l : List SeqStep) : (s.accept l).wrop = s.wrop := rfl
@[simp] theorem accept_rdop (l : List SeqStep) : (s.accept l).rdop = s.rdop := rfl
@[simp] theorem accept_steps (l : List SeqStep) : (s.accept l).steps = l := rfl
@[simp] theorem accept_dly (l : List SeqStep) : (s.accept l).dly = 0 := rfl
@[simp] theorem accept_sr (l : List SeqStep) : (s.accept l).sr = s.sr := rfl
@[simp] theorem accept_inputs (l : List SeqStep) : (s.accept l).inputs = s.inputs := rfl
@[simp] theorem accept_edge (l : List SeqStep) : (s.accept l).edge = s.edge := rfl

/-! ### `txLow` -/

@[simp] theorem txLow_sclk (i : Fin 8) (b : Byte) : (s.txLow i b).sclk = false := rfl
@[simp] theorem txLow_mosi (i : Fin 8) (b : Byte) : (s.txLow i b).mosi = ((if i = 0 then b else s.sr).getLsbD 7) := rfl
@[simp] theorem txLow_csN (i : Fin 8) (b : Byte) : (s.txLow i b).csN = s.csN := rfl
@[simp] theorem txLow_busy (i : Fin 8) (b : Byte) : (s.txLow i b).busy = s.busy := rfl
@[simp] theorem txLow_rdArmed (i : Fin 8) (b : Byte) : (s.txLow i b).rdArmed = s.rdArmed := rfl
@[simp] theorem txLow_first (i : Fin 8) (b : Byte) : (s.txLow i b).first = s.first := rfl
@[simp] theorem txLow_err (i : Fin 8) (b : Byte) : (s.txLow i b).err = s.err := rfl
@[simp] theorem txLow_errcode (i : Fin 8) (b : Byte) : (s.txLow i b).errcode = s.errcode := rfl
@[simp] theorem txLow_rxdata (i : Fin 8) (b : Byte) : (s.txLow i b).rxdata = s.rxdata := rfl
@[simp] theorem txLow_hp (i : Fin 8) (b : Byte) : (s.txLow i b).hp = s.hp := rfl
@[simp] theorem txLow_st (i : Fin 8) (b : Byte) : (s.txLow i b).st = s.st := rfl
@[simp] theorem txLow_wrop (i : Fin 8) (b : Byte) : (s.txLow i b).wrop = s.wrop := rfl
@[simp] theorem txLow_rdop (i : Fin 8) (b : Byte) : (s.txLow i b).rdop = s.rdop := rfl
@[simp] theorem txLow_steps (i : Fin 8) (b : Byte) : (s.txLow i b).steps = s.steps := rfl
@[simp] theorem txLow_dly (i : Fin 8) (b : Byte) : (s.txLow i b).dly = s.dly := rfl
@[simp] theorem txLow_sr (i : Fin 8) (b : Byte) : (s.txLow i b).sr = ((if i = 0 then b else s.sr) <<< 1) := rfl
@[simp] theorem txLow_inputs (i : Fin 8) (b : Byte) : (s.txLow i b).inputs = s.inputs := rfl
@[simp] theorem txLow_edge (i : Fin 8) (b : Byte) : (s.txLow i b).edge = s.edge := rfl

/-! ### `rxLow` -/

@[simp] theorem rxLow_sclk (i : Fin 8) : (s.rxLow i).sclk = false := rfl
@[simp] theorem rxLow_mosi (i : Fin 8) : (s.rxLow i).mosi = s.mosi := rfl
@[simp] theorem rxLow_csN (i : Fin 8) : (s.rxLow i).csN = s.csN := rfl
@[simp] theorem rxLow_busy (i : Fin 8) : (s.rxLow i).busy = s.busy := rfl
@[simp] theorem rxLow_rdArmed (i : Fin 8) : (s.rxLow i).rdArmed = s.rdArmed := rfl
@[simp] theorem rxLow_first (i : Fin 8) : (s.rxLow i).first = s.first := rfl
@[simp] theorem rxLow_err (i : Fin 8) : (s.rxLow i).err = s.err := rfl
@[simp] theorem rxLow_errcode (i : Fin 8) : (s.rxLow i).errcode = s.errcode := rfl
@[simp] theorem rxLow_rxdata (i : Fin 8) : (s.rxLow i).rxdata = s.rxdata := rfl
@[simp] theorem rxLow_hp (i : Fin 8) : (s.rxLow i).hp = s.hp := rfl
@[simp] theorem rxLow_st (i : Fin 8) : (s.rxLow i).st = s.st := rfl
@[simp] theorem rxLow_wrop (i : Fin 8) : (s.rxLow i).wrop = s.wrop := rfl
@[simp] theorem rxLow_rdop (i : Fin 8) : (s.rxLow i).rdop = s.rdop := rfl
@[simp] theorem rxLow_steps (i : Fin 8) : (s.rxLow i).steps = s.steps := rfl
@[simp] theorem rxLow_dly (i : Fin 8) : (s.rxLow i).dly = s.dly := rfl
@[simp] theorem rxLow_sr (i : Fin 8) : (s.rxLow i).sr = (if i = 0 then 0 else s.sr) := rfl
@[simp] theorem rxLow_inputs (i : Fin 8) : (s.rxLow i).inputs = s.inputs := rfl
@[simp] theorem rxLow_edge (i : Fin 8) : (s.rxLow i).edge = s.edge := rfl

/-! ### `rxHigh` -/

@[simp] theorem rxHigh_sclk (m : Bool) : (s.rxHigh m).sclk = true := rfl
@[simp] theorem rxHigh_mosi (m : Bool) : (s.rxHigh m).mosi = s.mosi := rfl
@[simp] theorem rxHigh_csN (m : Bool) : (s.rxHigh m).csN = s.csN := rfl
@[simp] theorem rxHigh_busy (m : Bool) : (s.rxHigh m).busy = s.busy := rfl
@[simp] theorem rxHigh_rdArmed (m : Bool) : (s.rxHigh m).rdArmed = s.rdArmed := rfl
@[simp] theorem rxHigh_first (m : Bool) : (s.rxHigh m).first = s.first := rfl
@[simp] theorem rxHigh_err (m : Bool) : (s.rxHigh m).err = s.err := rfl
@[simp] theorem rxHigh_errcode (m : Bool) : (s.rxHigh m).errcode = s.errcode := rfl
@[simp] theorem rxHigh_rxdata (m : Bool) : (s.rxHigh m).rxdata = s.rxdata := rfl
@[simp] theorem rxHigh_hp (m : Bool) : (s.rxHigh m).hp = s.hp := rfl
@[simp] theorem rxHigh_st (m : Bool) : (s.rxHigh m).st = s.st := rfl
@[simp] theorem rxHigh_wrop (m : Bool) : (s.rxHigh m).wrop = s.wrop := rfl
@[simp] theorem rxHigh_rdop (m : Bool) : (s.rxHigh m).rdop = s.rdop := rfl
@[simp] theorem rxHigh_steps (m : Bool) : (s.rxHigh m).steps = s.steps := rfl
@[simp] theorem rxHigh_dly (m : Bool) : (s.rxHigh m).dly = s.dly := rfl
@[simp] theorem rxHigh_sr (m : Bool) : (s.rxHigh m).sr = s.sr.extractLsb' 0 7 ++ BitVec.ofBool m := rfl
@[simp] theorem rxHigh_inputs (m : Bool) : (s.rxHigh m).inputs = s.inputs := rfl
@[simp] theorem rxHigh_edge (m : Bool) : (s.rxHigh m).edge = s.edge := rfl

/-! ### `deliver` -/

@[simp] theorem deliver_sclk : (s.deliver).sclk = s.sclk := rfl
@[simp] theorem deliver_mosi : (s.deliver).mosi = s.mosi := rfl
@[simp] theorem deliver_csN : (s.deliver).csN = s.csN := rfl
@[simp] theorem deliver_busy : (s.deliver).busy = s.busy := rfl
@[simp] theorem deliver_rdArmed : (s.deliver).rdArmed = s.rdArmed := rfl
@[simp] theorem deliver_first : (s.deliver).first = false := rfl
@[simp] theorem deliver_err : (s.deliver).err = s.err := rfl
@[simp] theorem deliver_errcode : (s.deliver).errcode = s.errcode := rfl
@[simp] theorem deliver_rxdata : (s.deliver).rxdata = s.rxdata.extractLsb' 0 24 ++ s.sr := rfl
@[simp] theorem deliver_hp : (s.deliver).hp = s.hp := rfl
@[simp] theorem deliver_st : (s.deliver).st = s.st := rfl
@[simp] theorem deliver_wrop : (s.deliver).wrop = s.wrop := rfl
@[simp] theorem deliver_rdop : (s.deliver).rdop = s.rdop := rfl
@[simp] theorem deliver_steps : (s.deliver).steps = s.steps := rfl
@[simp] theorem deliver_dly : (s.deliver).dly = s.dly := rfl
@[simp] theorem deliver_sr : (s.deliver).sr = s.sr := rfl
@[simp] theorem deliver_inputs : (s.deliver).inputs = s.inputs := rfl
@[simp] theorem deliver_edge : (s.deliver).edge = s.edge := rfl

/-! ### `complete` -/

@[simp] theorem complete_sclk : (s.complete).sclk = s.sclk := rfl
@[simp] theorem complete_mosi : (s.complete).mosi = s.mosi := rfl
@[simp] theorem complete_csN : (s.complete).csN = s.csN := rfl
@[simp] theorem complete_busy : (s.complete).busy = false := rfl
@[simp] theorem complete_rdArmed : (s.complete).rdArmed = s.rdArmed := rfl
@[simp] theorem complete_first : (s.complete).first = s.first := rfl
@[simp] theorem complete_err : (s.complete).err = s.err := rfl
@[simp] theorem complete_errcode : (s.complete).errcode = s.errcode := rfl
@[simp] theorem complete_rxdata : (s.complete).rxdata = s.rxdata := rfl
@[simp] theorem complete_hp : (s.complete).hp = s.hp := rfl
@[simp] theorem complete_st : (s.complete).st = s.st := rfl
@[simp] theorem complete_wrop : (s.complete).wrop = s.wrop := rfl
@[simp] theorem complete_rdop : (s.complete).rdop = s.rdop := rfl
@[simp] theorem complete_steps : (s.complete).steps = [] := rfl
@[simp] theorem complete_dly : (s.complete).dly = 0 := rfl
@[simp] theorem complete_sr : (s.complete).sr = s.sr := rfl
@[simp] theorem complete_inputs : (s.complete).inputs = s.inputs := rfl
@[simp] theorem complete_edge : (s.complete).edge = s.edge := rfl

/-! ### `hold` -/

@[simp] theorem hold_sclk (rest : List SeqStep) (w : Count) : (s.hold rest w).sclk = s.sclk := rfl
@[simp] theorem hold_mosi (rest : List SeqStep) (w : Count) : (s.hold rest w).mosi = s.mosi := rfl
@[simp] theorem hold_csN (rest : List SeqStep) (w : Count) : (s.hold rest w).csN = s.csN := rfl
@[simp] theorem hold_busy (rest : List SeqStep) (w : Count) : (s.hold rest w).busy = s.busy := rfl
@[simp] theorem hold_rdArmed (rest : List SeqStep) (w : Count) : (s.hold rest w).rdArmed = s.rdArmed := rfl
@[simp] theorem hold_first (rest : List SeqStep) (w : Count) : (s.hold rest w).first = s.first := rfl
@[simp] theorem hold_err (rest : List SeqStep) (w : Count) : (s.hold rest w).err = s.err := rfl
@[simp] theorem hold_errcode (rest : List SeqStep) (w : Count) : (s.hold rest w).errcode = s.errcode := rfl
@[simp] theorem hold_rxdata (rest : List SeqStep) (w : Count) : (s.hold rest w).rxdata = s.rxdata := rfl
@[simp] theorem hold_hp (rest : List SeqStep) (w : Count) : (s.hold rest w).hp = s.hp := rfl
@[simp] theorem hold_st (rest : List SeqStep) (w : Count) : (s.hold rest w).st = s.st := rfl
@[simp] theorem hold_wrop (rest : List SeqStep) (w : Count) : (s.hold rest w).wrop = s.wrop := rfl
@[simp] theorem hold_rdop (rest : List SeqStep) (w : Count) : (s.hold rest w).rdop = s.rdop := rfl
@[simp] theorem hold_steps (rest : List SeqStep) (w : Count) : (s.hold rest w).steps = rest := rfl
@[simp] theorem hold_dly (rest : List SeqStep) (w : Count) : (s.hold rest w).dly = w - 1 := rfl
@[simp] theorem hold_sr (rest : List SeqStep) (w : Count) : (s.hold rest w).sr = s.sr := rfl
@[simp] theorem hold_inputs (rest : List SeqStep) (w : Count) : (s.hold rest w).inputs = s.inputs := rfl
@[simp] theorem hold_edge (rest : List SeqStep) (w : Count) : (s.hold rest w).edge = s.edge := rfl

/-! ### `resetEdge` -/

@[simp] theorem resetEdge_sclk : (s.resetEdge).sclk = false := rfl
@[simp] theorem resetEdge_mosi : (s.resetEdge).mosi = false := rfl
@[simp] theorem resetEdge_csN : (s.resetEdge).csN = true := rfl
@[simp] theorem resetEdge_busy : (s.resetEdge).busy = false := rfl
@[simp] theorem resetEdge_rdArmed : (s.resetEdge).rdArmed = false := rfl
@[simp] theorem resetEdge_first : (s.resetEdge).first = false := rfl
@[simp] theorem resetEdge_err : (s.resetEdge).err = false := rfl
@[simp] theorem resetEdge_errcode : (s.resetEdge).errcode = 0 := rfl
@[simp] theorem resetEdge_rxdata : (s.resetEdge).rxdata = 0 := rfl
@[simp] theorem resetEdge_hp : (s.resetEdge).hp = 0xFFFF := rfl
@[simp] theorem resetEdge_st : (s.resetEdge).st = 0xFFFF := rfl
@[simp] theorem resetEdge_wrop : (s.resetEdge).wrop = 0x0A := rfl
@[simp] theorem resetEdge_rdop : (s.resetEdge).rdop = 0x0B := rfl
@[simp] theorem resetEdge_steps : (s.resetEdge).steps = [] := rfl
@[simp] theorem resetEdge_dly : (s.resetEdge).dly = 0 := rfl
@[simp] theorem resetEdge_sr : (s.resetEdge).sr = 0 := rfl
@[simp] theorem resetEdge_inputs : (s.resetEdge).inputs = s.inputs.tail := rfl
@[simp] theorem resetEdge_edge : (s.resetEdge).edge = s.edge + 1 := rfl

end Sys2Proof.Machine.State
end

