-- ==== Sys2Proof/Laws/Ports.lean ====
section
/-! SUPPORT. The input ports of the cycles to come: how an edge, a reset and a host access change what
a later cycle sees. -/

namespace Sys2Proof.Machine.State

variable (s : State)

theorem portsAt_eq_of_tail {s t : State} (hi : t.inputs = s.inputs.tail) (he : t.edge = s.edge + 1)
    (k : Nat) : t.portsAt k = s.portsAt (k + 1) := by
  unfold portsAt
  rw [hi, he, List.getElem?_tail, show s.edge + 1 + k = s.edge + (k + 1) by omega]

@[simp] theorem nextCycle_portsAt (k : Nat) : s.nextCycle.portsAt k = s.portsAt (k + 1) :=
  portsAt_eq_of_tail rfl rfl k

@[simp] theorem resetEdge_portsAt (k : Nat) : s.resetEdge.portsAt k = s.portsAt (k + 1) :=
  portsAt_eq_of_tail rfl rfl k

@[simp] theorem withAccess_ports (a : BusAccess) : (s.withAccess a).ports = s.ports.withAccess a := rfl

/-- A host access in the current cycle leaves the later cycles as they were. -/
theorem withAccess_portsAt_succ (a : BusAccess) (k : Nat) :
    (s.withAccess a).portsAt (k + 1) = s.portsAt (k + 1) := by
  unfold portsAt withAccess
  cases hs : s.inputs <;> simp

end Sys2Proof.Machine.State
end

