-- ==== Sys2Proof/Laws/Sequencer.lean ====
section
/-! SUPPORT. What a step action, the steps of one edge and the sequencer's advance can change. -/

namespace Sys2Proof.Machine

/-- What no step touches: the errors, the configuration, BUSY, STEPS, DLY and the input ports. -/
structure SameRest (s t : State) : Prop where
  err : t.err = s.err
  errcode : t.errcode = s.errcode
  hp : t.hp = s.hp
  st : t.st = s.st
  wrop : t.wrop = s.wrop
  rdop : t.rdop = s.rdop
  inputs : t.inputs = s.inputs
  edge : t.edge = s.edge

theorem SameRest.refl (s : State) : SameRest s s := ⟨rfl, rfl, rfl, rfl, rfl, rfl, rfl, rfl⟩

theorem SameRest.trans {s t u : State} (h : SameRest s t) (k : SameRest t u) : SameRest s u :=
  ⟨k.err.trans h.err, k.errcode.trans h.errcode, k.hp.trans h.hp, k.st.trans h.st,
    k.wrop.trans h.wrop, k.rdop.trans h.rdop, k.inputs.trans h.inputs, k.edge.trans h.edge⟩

theorem action_sameRest (m : Bool) (s : State) (t : SeqStep) : SameRest s (t.action m s) := by
  cases t <;> exact ⟨rfl, rfl, rfl, rfl, rfl, rfl, rfl, rfl⟩

@[simp] theorem action_busy (m : Bool) (s : State) (t : SeqStep) : (t.action m s).busy = s.busy := by
  cases t <;> rfl

@[simp] theorem action_steps (m : Bool) (s : State) (t : SeqStep) :
    (t.action m s).steps = s.steps := by
  cases t <;> rfl

@[simp] theorem action_dly (m : Bool) (s : State) (t : SeqStep) : (t.action m s).dly = s.dly := by
  cases t <;> rfl

theorem runSteps_sameRest (m : Bool) (l : List SeqStep) (s : State) :
    SameRest s (State.runSteps m l s) := by
  induction l generalizing s with
  | nil => exact ⟨rfl, rfl, rfl, rfl, rfl, rfl, rfl, rfl⟩
  | cons t rest ih =>
    unfold State.runSteps
    split
    · exact (action_sameRest m s t).trans (ih _)
    · exact (action_sameRest m s t).trans ⟨rfl, rfl, rfl, rfl, rfl, rfl, rfl, rfl⟩

/-- A zero-wait step at the head runs and the edge goes on with the rest (R126). -/
theorem runSteps_zero {t : SeqStep} (m : Bool) (rest : List SeqStep) (s : State) (h : t.wait = 0) :
    State.runSteps m (t :: rest) s = State.runSteps m rest (t.action m s) := by
  rw [State.runSteps, if_pos h]

/-- A step with a wait at the head runs and ends the edge (R128). -/
theorem runSteps_waiting {t : SeqStep} (m : Bool) (rest : List SeqStep) (s : State)
    (h : t.wait ≠ 0) : State.runSteps m (t :: rest) s = (t.action m s).hold rest t.wait := by
  rw [State.runSteps, if_neg h]

/-- The actions of a list of steps at one edge, in order. -/
def actions (m : Bool) (ran : List SeqStep) (s : State) : State :=
  ran.foldl (fun u t => t.action m u) s

/-- All the steps of one edge can do: zero-wait steps run, then either the list is exhausted and the
command completes, or one waiting step runs and the rest of the list stays. -/
theorem runSteps_cases (m : Bool) (l : List SeqStep) (s : State) :
    (∃ ran, l = ran ∧ (∀ x ∈ ran, x.wait = 0) ∧
      State.runSteps m l s = (actions m ran s).complete) ∨
    (∃ ran t rest, l = ran ++ t :: rest ∧ (∀ x ∈ ran, x.wait = 0) ∧ t.wait ≠ 0 ∧
      State.runSteps m l s = (t.action m (actions m ran s)).hold rest t.wait) := by
  induction l generalizing s with
  | nil => exact .inl ⟨[], rfl, by simp, rfl⟩
  | cons t rest ih =>
    by_cases hw : t.wait = 0
    · rcases ih (t.action m s) with ⟨ran, h1, h2, h3⟩ | ⟨ran, u, r, h1, h2, h3, h4⟩
      · refine .inl ⟨t :: ran, by rw [h1], ?_, ?_⟩
        · simpa [hw] using h2
        · simp [State.runSteps, hw, h3, actions]
      · refine .inr ⟨t :: ran, u, r, by simp [h1], ?_, h3, ?_⟩
        · simpa [hw] using h2
        · simp [State.runSteps, hw, h4, actions]
    · exact .inr ⟨[], t, rest, rfl, by simp, hw, by rw [State.runSteps, if_neg hw]; rfl⟩

theorem advance_sameRest (m : Bool) (s : State) : SameRest s (s.advance m) := by
  unfold State.advance
  split
  · exact runSteps_sameRest m s.steps s
  · exact ⟨rfl, rfl, rfl, rfl, rfl, rfl, rfl, rfl⟩

/-- A waiting edge (R128): the delay counter drops and nothing else changes. -/
theorem advance_waiting {s : State} (m : Bool) (h : s.dly ≠ 0) :
    s.advance m = { s with dly := s.dly - 1 } := by
  rw [State.advance, if_neg h]

/-- The advance with the delay counter at 0 (R128). -/
theorem advance_running {s : State} (m : Bool) (h : s.dly = 0) :
    s.advance m = State.runSteps m s.steps s := by
  rw [State.advance, if_pos h]

end Sys2Proof.Machine
end

