-- ==== Sys2Proof/Laws/Edge.lean ====
section
/-! SUPPORT. What a command's meaning, a host access and an edge can do, each said once. -/

namespace Sys2Proof.Machine

/-- The next state of an outcome, where it has one. -/
def nextOf {σ φ ρ : Type} : Host.Outcome σ φ ρ → Option σ
  | .next s => some s
  | .fault _ => none
  | .refused _ => none

/-- All an attempted command can do: raise one misuse error, or start while idle. -/
theorem attempt_cases (s : State) (check : Option Misuse) (started : State) :
    (∃ m, s.attempt check started = .next (s.raise m)) ∨
    (s.busy = false ∧ check = none ∧ s.attempt check started = .next started) := by
  unfold State.attempt
  cases hb : s.busy <;> cases check <;> simp

theorem attempt_idle {s : State} (hb : s.busy = false) (started : State) :
    s.attempt none started = .next started := by
  simp [State.attempt, hb]

theorem attempt_rejected {s : State} (hb : s.busy = false) (m : Misuse) (started : State) :
    s.attempt (some m) started = .next (s.raise m) := by
  simp [State.attempt, hb]

theorem attempt_busy {s : State} (hb : s.busy = true) (check : Option Misuse) (started : State) :
    s.attempt check started = .next (s.raise .busy) := by
  simp [State.attempt, hb]

/-- All the meaning of a command can do: raise one misuse error, or start a step list while idle,
clearing RXDATA or not. -/
theorem exec_cases (i : Instr) (s : State) :
    (∃ m, exec i s = .next (s.raise m)) ∨
    (s.busy = false ∧ ∃ l rx, exec i s = .next { s.accept l with rxdata := rx }) := by
  cases i <;>
    simp only [exec, execCsa, execCsd, execSend, execRecv, execWait, execDispw, execDevw, execDevr] <;>
    rcases attempt_cases s _ _ with ⟨m, h⟩ | ⟨hb, -, h⟩ <;>
    first
    | exact .inl ⟨m, h⟩
    | exact .inr ⟨hb, _, _, h⟩

/-- All a host access can do to the state. -/
inductive AccessEffect (s : State) : State → Prop
  | nothing : AccessEffect s s
  | raised (m : Misuse) : AccessEffect s (s.raise m)
  | cleared : AccessEffect s s.clearError
  | halfper (v : Count) (hv : v ≠ 0) (idle : s.busy = false) : AccessEffect s { s with hp := v }
  | settle (v : Count) (idle : s.busy = false) : AccessEffect s { s with st := v }
  | profile (w r : Byte) (idle : s.busy = false) : AccessEffect s { s with wrop := w, rdop := r }
  | started (i : Instr) (t : State) (idle : s.busy = false) (wf : i.WellFormed)
      (run : exec i s = .next t) : AccessEffect s t

theorem halfperOf_ne_zero (v : Word) : halfperOf v ≠ 0 := by
  unfold halfperOf
  split
  · decide
  · assumption

/-- The decoder accepts only well-formed commands. -/
theorem decode_wellFormed {w : Word} {i : Instr} (h : decode w = .ok i) : i.WellFormed := by
  unfold decode at h
  split at h <;> (try simp only [checked, decodeDevr] at h) <;> repeat' split at h
  all_goals cases h
  all_goals first
    | rfl
    | assumption

theorem writeIfIdle_cases (s new : State) :
    (s.busy = true ∧ s.writeIfIdle new = s.raise .busy) ∨ (s.busy = false ∧ s.writeIfIdle new = new) := by
  unfold State.writeIfIdle
  cases s.busy <;> simp

theorem cmdWrite_cases (w : Word) (s : State) :
    ∃ t, cmdWrite w s = .next t ∧ AccessEffect s t := by
  unfold cmdWrite
  cases hb : s.busy with
  | true => exact ⟨_, by simp, .raised .busy⟩
  | false =>
    cases hd : decode w with
    | error e => exact ⟨_, by simp, .raised .illegal⟩
    | ok i =>
      rcases exec_cases i s with ⟨m, h⟩ | ⟨-, l, rx, h⟩
      · exact ⟨_, by simpa using h, .raised m⟩
      · exact ⟨_, by simpa using h, .started i _ hb (decode_wellFormed hd) h⟩

theorem hostWrite_cases (r : Reg) (v : Word) (s : State) :
    ∃ t, hostWrite r v s = .next t ∧ AccessEffect s t := by
  cases r with
  | cmd => exact cmdWrite_cases v s
  | status =>
    refine ⟨_, rfl, ?_⟩
    simp only [State.busWrite, State.writeStatus]
    split
    · exact .cleared
    · exact .nothing
  | rxdata => exact ⟨_, rfl, .nothing⟩
  | pins => exact ⟨_, rfl, .nothing⟩
  | reserved => exact ⟨_, rfl, .nothing⟩
  | halfper =>
    refine ⟨_, rfl, ?_⟩
    rcases writeIfIdle_cases s { s with hp := halfperOf v } with ⟨-, h⟩ | ⟨hb, h⟩ <;>
      simp only [State.busWrite, h]
    · exact .raised _
    · exact .halfper _ (halfperOf_ne_zero v) hb
  | settle =>
    refine ⟨_, rfl, ?_⟩
    rcases writeIfIdle_cases s { s with st := v.extractLsb' 0 16 } with ⟨-, h⟩ | ⟨hb, h⟩ <;>
      simp only [State.busWrite, h]
    · exact .raised _
    · exact .settle _ hb
  | profile =>
    refine ⟨_, rfl, ?_⟩
    rcases writeIfIdle_cases s { s with wrop := v.extractLsb' 0 8, rdop := v.extractLsb' 8 8 } with
      ⟨-, h⟩ | ⟨hb, h⟩ <;> simp only [State.busWrite, h]
    · exact .raised _
    · exact .profile _ _ hb

theorem hostAccess_cases (p : PortIn) (s : State) :
    ∃ t, hostAccess p s = .next t ∧ AccessEffect s t := by
  unfold hostAccess
  split
  · exact hostWrite_cases _ _ s
  · exact ⟨s, rfl, .nothing⟩

/-- All one step can do: reset, or a host access and, if BUSY was 1, the sequencer's advance. -/
theorem step_cases (s : State) :
    (s.ports.rst = true ∧ step s = .next s.resetEdge) ∨
    (s.ports.rst = false ∧ ∃ t, hostAccess s.ports s = .next t ∧ AccessEffect s t ∧
      step s = .next (sequencer s.busy s.ports.miso t).nextCycle) := by
  unfold step clockEdge
  cases hr : s.ports.rst with
  | true => exact .inl ⟨rfl, by simp⟩
  | false =>
    obtain ⟨t, h, he⟩ := hostAccess_cases s.ports s
    exact .inr ⟨rfl, t, h, he, by simp [h]⟩

/-- While a command runs, a host access touches only ERR and ERRCODE (R120, R123). -/
theorem access_while_busy {s t : State} (hb : s.busy = true) (h : AccessEffect s t) :
    t = { s with err := t.err, errcode := t.errcode } := by
  cases h with
  | nothing => rfl
  | raised m => rfl
  | cleared => rfl
  | halfper _ _ idle => simp [hb] at idle
  | settle _ idle => simp [hb] at idle
  | profile _ _ idle => simp [hb] at idle
  | started _ _ idle => simp [hb] at idle

/-- The recorded error plays no part in the sequencer: the steps of one edge. -/
theorem runSteps_setError (m : Bool) (l : List SeqStep) (s : State) (e : Bool) (c : BitVec 4) :
    State.runSteps m l { s with err := e, errcode := c } =
      { State.runSteps m l s with err := e, errcode := c } := by
  induction l generalizing s with
  | nil => rfl
  | cons t rest ih =>
    have ha : t.action m { s with err := e, errcode := c } =
        { t.action m s with err := e, errcode := c } := by cases t <;> rfl
    unfold State.runSteps
    rw [ha]
    split
    · exact ih _
    · rfl

/-- The recorded error plays no part in the sequencer: the advance. -/
theorem advance_setError (m : Bool) (s : State) (e : Bool) (c : BitVec 4) :
    State.advance { s with err := e, errcode := c } m =
      { s.advance m with err := e, errcode := c } := by
  unfold State.advance
  by_cases h : s.dly = 0
  · rw [if_pos h, if_pos h]
    exact runSteps_setError m s.steps s e c
  · rw [if_neg h, if_neg h]

/-- All a step can do while a command runs and `rst` is 0: the sequencer advances, and the host can
change only the recorded error. -/
theorem step_busy {s : State} (hb : s.busy = true) (hr : s.ports.rst = false) :
    ∃ e c, step s = .next { (s.advance s.ports.miso).nextCycle with err := e, errcode := c } := by
  rcases step_cases s with ⟨h, -⟩ | ⟨-, t, -, ha, h⟩
  · rw [hr] at h
    cases h
  · refine ⟨t.err, t.errcode, ?_⟩
    rw [h, access_while_busy hb ha, sequencer, if_pos hb, advance_setError]
    rfl

/-- The command presented at an edge, when idle: its word is decoded and its meaning runs (R121). -/
theorem cmdWrite_idle {w : Word} {s : State} {i : Instr} (hb : s.busy = false)
    (hd : decode w = .ok i) : cmdWrite w s = exec i s := by
  simp [cmdWrite, hb, hd]

theorem cmdWrite_busy {s : State} (w : Word) (hb : s.busy = true) :
    cmdWrite w s = .next (s.raise .busy) := by
  simp [cmdWrite, hb]

end Sys2Proof.Machine
end

