-- ==== Sys2Proof/Laws/Host.lean ====
section
/-! SUPPORT. The two edges the statements compare: one where the host writes a register, and the same
edge with the host idle; and what is left of a command. -/

namespace Sys2Proof.Machine

open Sys2Proof.Safety

/-- The scheduled inputs play no part in the sequencer: the steps of one edge. -/
theorem runSteps_setInputs (m : Bool) (l : List SeqStep) (s : State) (ps : List PortIn) :
    State.runSteps m l { s with inputs := ps } = { State.runSteps m l s with inputs := ps } := by
  induction l generalizing s with
  | nil => rfl
  | cons t rest ih =>
    have ha : t.action m { s with inputs := ps } = { t.action m s with inputs := ps } := by
      cases t <;> rfl
    unfold State.runSteps
    rw [ha]
    split
    · exact ih _
    · rfl

/-- The scheduled inputs play no part in the sequencer: the advance. -/
theorem advance_setInputs (m : Bool) (s : State) (ps : List PortIn) :
    State.advance { s with inputs := ps } m = { s.advance m with inputs := ps } := by
  unfold State.advance
  by_cases h : s.dly = 0
  · rw [if_pos h, if_pos h]
    exact runSteps_setInputs m s.steps s ps
  · rw [if_neg h, if_neg h]

/-- The edge with the host idle: the sequencer's part alone. -/
theorem step_withAccess_idle (s : State) :
    step (s.withAccess .idle) = .next (sequencer s.busy s.ports.miso s).nextCycle := by
  have hs : step (s.withAccess .idle) =
      .next (sequencer s.busy s.ports.miso (s.withAccess .idle)).nextCycle := rfl
  rw [hs]
  congr 1
  unfold sequencer
  split
  · rw [State.withAccess, advance_setInputs]
    simp only [State.nextCycle, List.tail_cons, (advance_sameRest s.ports.miso s).inputs]
  · rfl

/-- The recorded error plays no part in the sequencer's share of an edge. -/
theorem sequencer_setError (b m : Bool) (s : State) (e : Bool) (c : BitVec 4) :
    sequencer b m { s with err := e, errcode := c } =
      { sequencer b m s with err := e, errcode := c } := by
  cases b with
  | false => rfl
  | true => exact advance_setError m s e c

/-- A written register is the one the slot index selects. -/
@[simp] theorem Reg.ofSlot_slot (r : Reg) : Reg.ofSlot r.slot = r := by cases r <;> rfl

/-- Where the host writes a register, its access is that write. -/
theorem hostAccess_write {s : State} {r : Reg} {v : Word} (h : WritesReg s r v) :
    hostAccess s.ports s = hostWrite r v s := by
  obtain ⟨-, hsel, hwe, ha, hv⟩ := h
  simp [hostAccess, hsel, hwe, ha, hv]

/-- The edge at which the host writes a register: the write, the sequencer's part, the cycle over. -/
theorem step_write {s t : State} {r : Reg} {v : Word} (h : WritesReg s r v)
    (hw : hostWrite r v s = .next t) :
    step s = .next (sequencer s.busy s.ports.miso t).nextCycle := by
  unfold step clockEdge
  rw [hostAccess_write h, hw, if_neg (by simp [h.1])]

/-- A write that only records or clears an error is the idle edge with that error in it. -/
theorem step_write_error {s : State} {r : Reg} {v : Word} {e : Bool} {c : BitVec 4}
    (h : WritesReg s r v) (hw : hostWrite r v s = .next { s with err := e, errcode := c }) :
    ∃ u, step (s.withAccess .idle) = .next u ∧ step s = .next { u with err := e, errcode := c } := by
  refine ⟨_, step_withAccess_idle s, ?_⟩
  rw [step_write h hw, sequencer_setError]
  rfl

/-- What is left of a command, its completion included, is nothing exactly when BUSY = 0: the half of
R33's sentence that R128 and R180 leave standing (log 6). -/
theorem State.remaining_eq_zero_iff (s : State) : s.remaining = 0 ↔ s.busy = false := by
  cases h : s.busy <;> simp [State.remaining, h]

end Sys2Proof.Machine
end

