-- ==== Sys2Proof/Laws/PerInstr.lean ====
section
/-! SUPPORT. Statements made command by command. Family `EncodeRow`: the encoder's word matches the
command's row of the decoder table (30_encoding.md rule R96). -/

namespace Sys2Proof.Laws.EncodeRow

/-- The word of a command, compared under its row's mask, is its row's match value (R96). -/
def Statement (i : Instr) : Prop := encode i &&& rowMask i = rowMatch i

theorem csa : Statement .csa := rfl

theorem csd : Statement .csd := rfl

theorem send (b : Byte) : Statement (.send b) := by
  revert b; simp only [Statement, encode, rowMask, rowMatch]; decide

theorem recv : Statement .recv := rfl

/-- A field shifted up by 8 does not reach the low byte or the bits above the field. -/
theorem field_masked {n : Nat} (v : BitVec n) (hn : n = 16) (op : Word) :
    ((v.setWidth 32 <<< 8) ||| (op &&& 0xFF)) &&& 0xFF0000FF = op &&& 0xFF := by
  subst hn
  ext k hk
  have h1 : (0xFF0000FF : Word).getLsbD k = (decide (k < 8) || decide (24 ≤ k ∧ k < 32)) := by
    revert k; decide
  have h2 : (0xFF : Word).getLsbD k = decide (k < 8) := by
    revert k; decide
  simp only [← BitVec.getLsbD_eq_getElem, BitVec.getLsbD_and, BitVec.getLsbD_or, h1, h2,
    BitVec.getLsbD_shiftLeft, BitVec.getLsbD_setWidth]
  by_cases a : k < 8
  · simp [a]
  · by_cases b : k < 24
    · simp [a, show ¬ 24 ≤ k by omega]
    · simp [a, BitVec.getLsbD_of_ge v (k - 8) (by omega)]

theorem wait (n : Count) : Statement (.wait n) := field_masked n rfl 0x5

/-- Two byte operands are one 16-bit field. -/
theorem packBytes_eq (op : Word) (b0 b1 : Byte) :
    packBytes op b0 b1 = ((b1 ++ b0 : BitVec 16).setWidth 32 <<< 8) ||| op := by
  unfold packBytes
  congr 1
  ext k hk
  simp only [← BitVec.getLsbD_eq_getElem, BitVec.getLsbD_or, BitVec.getLsbD_shiftLeft,
    BitVec.getLsbD_setWidth, BitVec.getLsbD_append]
  by_cases a : k < 8
  · simp [a, show k < 16 by omega]
  · by_cases b : k < 16
    · simp [a, b, show k - 8 < 8 by omega]
    · simp [a, b, show ¬ k - 8 < 8 by omega, show k - 8 - 8 = k - 16 by omega,
        show k - 16 < 32 by omega, show k - 8 < 32 by omega,
        BitVec.getLsbD_of_ge b0 (k - 8) (by omega)]

theorem dispw (a d : Byte) : Statement (.dispw a d) := by
  simpa [Statement, encode, rowMask, rowMatch, packBytes_eq] using field_masked (d ++ a) rfl 0x6

theorem devw (a d : Byte) : Statement (.devw a d) := by
  simpa [Statement, encode, rowMask, rowMatch, packBytes_eq] using field_masked (d ++ a) rfl 0x7

theorem devr (a cnt : Byte) : Statement (.devr a cnt) := by
  simpa [Statement, encode, rowMask, rowMatch, packBytes_eq] using field_masked (cnt ++ a) rfl 0x8

end Sys2Proof.Laws.EncodeRow
end

