-- ==== Sys2Proof/Tests/Slice0.lean ====
section
/-! SUPPORT. The model's own tests: well-formedness, words written out from 30_encoding.md rule R96, one
step on small states with the results spec/95_test_vectors.md gives, and a witness for the hypotheses of
every statement. -/

namespace Sys2Proof.Tests

open Sys2Proof Sys2Proof.Machine Sys2Proof.Safety

/-! ### Small states and cycles -/

/-- A cycle with no host access. -/
def quiet (miso : Bool) : PortIn := ⟨false, false, false, 0, 0, miso⟩

/-- A cycle with a host write. -/
def wr (r : Reg) (v : Word) : PortIn := ⟨false, true, true, r.slot, v, false⟩

/-- A cycle with a host read. -/
def rd (r : Reg) (miso : Bool) : PortIn := ⟨false, true, false, r.slot, 0, miso⟩

/-- A state with its next cycles: `p` first, then `n` quiet ones. -/
def sched (s : State) (p : PortIn) (n : Nat) : State :=
  { s with inputs := p :: List.replicate n (quiet true) }

/-- The host presents the command `i` now, then `n` quiet cycles follow. -/
def given (s : State) (i : Instr) (n : Nat) : State := sched s (wr .cmd (encode i)) n

/-- Idle, no transaction open, H = 1, S = 3. -/
def idle : State := { State.reset with hp := 1, st := 3 }

/-- Idle inside a transaction whose first byte is still to come (after `csa`). -/
def opened : State := { idle with csN := false, first := true }

/-- Idle inside a transaction opened with the read opcode. -/
def armed : State := { idle with csN := false, rdArmed := true, sclk := true, mosi := true }

/-- A command running inside a transaction, its next step due at the next edge. -/
def running (l : List SeqStep) : State := { opened with busy := true, steps := l }

/-- A field of the state one step later. -/
def after {α : Type} (f : State → α) (s : State) : Option α := (nextOf (step s)).map f

/-- The pins SCLK, MOSI, CS_N. -/
def pins (s : State) : Bool × Bool × Bool := (s.sclk, s.mosi, s.csN)

/-- The command a word decodes to. -/
def decoded (w : Word) : Option Instr := decodeTableWord 32 w.toNat

/-! ### Well-formedness (R92): the check refuses an ill-formed term -/

theorem test_wf_count_zero : (Instr.devr 0x00 0).wellFormed = false := by decide

theorem test_wf_count_five : (Instr.devr 0x00 5).wellFormed = false := by decide

theorem test_wf_count_four : (Instr.devr 0x00 4).wellFormed = true := by decide

/-! ### Decoding: words written out bit by bit from R96, and words of 95 section 2.1 -/

theorem test_decode_csa : decoded 0b00000000000000000000000000000001 = some .csa := by decide

theorem test_decode_csd : decoded 0b00000000000000000000000000000010 = some .csd := by decide

theorem test_decode_send :
    decoded 0b00000000000000000011111000000011 = some (.send 0x3E) := by decide

theorem test_decode_recv : decoded 0b00000000000000000000000000000100 = some .recv := by decide

theorem test_decode_wait :
    decoded 0b00000000000000010000001000000101 = some (.wait 0x0102) := by decide

theorem test_decode_dispw :
    decoded 0b00000000001111100000000100000110 = some (.dispw 0x01 0x3E) := by decide

theorem test_decode_devw :
    decoded 0b00000000010100100001111100000111 = some (.devw 0x1F 0x52) := by decide

theorem test_decode_devr :
    decoded 0b00000000000000100000111000001000 = some (.devr 0x0E 2) := by decide

/-- 95 section 2.1: the illegal words of the table. -/
theorem test_decode_illegal_words :
    [0x00000000, 0x00000009, 0x0000000F, 0x00000013, 0x00010003, 0x01000005, 0x00000102, 0x00000008,
      0x00050008].all (fun w => decoded w == none) = true := by decide

/-- R97: the assembler's text of 95 program P2. -/
theorem test_assemble_dispw : assemble "dispw 0x01, 0x3E" = some 0x003E0106 := by decide

/-- Log 16: a blank inside an operand is refused, not dropped. -/
theorem test_assemble_inner_blank : assemble "send 1 2" = none := by decide

/-! ### One step of each command (STATUS values of 95 sections 2.3 and 2.7) -/

/-- 2.3: `csa` accepted at edge 1, after edge 1 STATUS = 0x1. -/
theorem test_csa_accepted : after State.status (given State.reset .csa 0) = some 0x1 := by decide

/-- 2.3: after edge 2 CS_N = 0 and STATUS = 0xB. -/
theorem test_csa_opens :
    after (fun s => (s.csN, s.status)) (sched { idle with busy := true, steps := [.cslo] } (quiet false) 0) =
      some (false, 0xB) := by decide

/-- 2.7: `csd` with no chip select gives NO_CS. -/
theorem test_csd_without_cs : after State.status (given idle .csd 0) = some 0x4100 := by decide

/-- R151: after `c+1` CS_N = 1 while SCLK and MOSI stay. -/
theorem test_csd_closes :
    after pins (sched { armed with busy := true, steps := [.cshi, .ckidle] } (quiet false) 0) =
      some (true, true, true) := by decide

/-- 2.7: `send` with no chip select gives NO_CS and leaves the pins. -/
theorem test_send_without_cs :
    after (fun s => (s.status, pins s)) (given idle (.send 0x55) 0) =
      some (0x4100, (false, false, true)) := by decide

/-- R161: the first TXLO of 0xA5 drives bit 7 and leaves `{b[6:0], 0}` in SR. -/
theorem test_send_first_bit :
    after (fun s => (s.mosi, s.sr)) (sched (running (txByte 0xA5 1 0x0B)) (quiet false) 0) =
      some (true, 0x4A) := by decide

/-- 2.7: `recv` in a transaction whose reads are not armed gives NO_READ_MODE. -/
theorem test_recv_not_armed : after State.status (given opened .recv 0) = some 0x510A := by decide

/-- R124: RXHI shifts the sampled 1 in at SR[0] and drives SCLK high. -/
theorem test_recv_samples :
    after (fun s => (s.sr, s.sclk)) (sched { running [.rxhi 1] with sr := 0x59 } (quiet true) 0) =
      some (0xB3, true) := by decide

/-- R180: `wait 3` starts `HOLD(3)`. -/
theorem test_wait_holds : after State.steps (given idle (.wait 3) 0) = some [.hold 3] := by decide

/-- R121, R180: the acceptance of `wait 0` writes BUSY = 1 and STEPS = [] (log 6). -/
theorem test_wait_zero_starts :
    after (fun t => (t.busy, t.steps)) (given idle (.wait 0) 0) = some (true, []) := by decide

/-- 2.5: `wait 0` completes at the edge after its acceptance. -/
theorem test_wait_zero_completes :
    after State.busy (sched { idle with busy := true, steps := [] } (quiet false) 0) = some false := by
  decide

/-- 2.7: `dispw` in an open transaction gives TXN_OPEN. -/
theorem test_dispw_while_open : after State.status (given opened (.dispw 1 2) 0) = some 0x310A := by
  decide

/-- R190: the list has 38 steps with a settle hold and 37 without. -/
theorem test_dispw_settle_hold :
    (after (fun s => s.steps.length) (given idle (.dispw 1 0x3E) 0),
      after (fun s => s.steps.length) (given { idle with st := 0 } (.dispw 1 0x3E) 0)) =
      (some 38, some 37) := by decide

/-- R195: the first byte of a DEVW is WROP. -/
theorem test_devw_sends_opcode :
    after (fun s => s.steps[1]?) (given idle (.devw 0x1F 0x52) 0) = some (some (.txlo 0 0x0A 1)) := by
  decide

/-- R200: a DEVR clears RXDATA at its acceptance. -/
theorem test_devr_clears :
    after State.rxdata (given { idle with rxdata := 0x11223344 } (.devr 0x0E 2) 0) = some 0 := by
  decide

/-- R168: RXEND shifts the byte in at the low end, the oldest byte is lost (95 section 2.4). -/
theorem test_receive_accumulates :
    after State.rxdata
      (sched { running [.rxend] with rxdata := 0x11223344, sr := 0xB2 } (quiet false) 0) =
      some 0x223344B2 := by decide

/-! ### Registers and errors (95 section 2.2) -/

/-- `wr HALFPER, 0x10000`: the low 16 bits are 0, and 1 is stored. -/
theorem test_halfper_zero : after State.hp (sched idle (wr .halfper 0x10000) 0) = some 1 := by decide

/-- `wr PROFILE, 0xFFFF1234` reads back 0x00001234. -/
theorem test_profile_readback :
    after State.profileWord (sched idle (wr .profile 0xFFFF1234) 0) = some 0x00001234 := by decide

/-- `wr HALFPER, 5` while a SEND runs: HALFPER stays 1, STATUS = 0x0000210B. -/
theorem test_halfper_while_busy :
    after (fun s => (s.hp, s.status)) (sched (running (txByte 0xA5 1 0x0B)) (wr .halfper 5) 0) =
      some (1, 0x0000210B) := by decide

/-- `wr STATUS, 0x100` while the SEND runs: the error is cleared, STATUS = 0x0000000B. -/
theorem test_clear_while_busy :
    after State.status (sched { running (txByte 0xA5 1 0x0B) with err := true, errcode := 2 }
      (wr .status 0x100) 0) = some 0x0000000B := by decide

/-- 2.2: PINS after reset reads 0x4 with MISO = 0. -/
theorem test_pins_after_reset : (sched State.reset (rd .pins false) 0).busRdata = 0x4 := by decide

/-- The host's view: the word placed for the next step is accepted as the first command after reset. -/
theorem test_fetch_word :
    after State.steps (State.reset.withFetchWord 32 0x00000305) = some [.hold 3] := by decide

/-! ### Witnesses: concrete states and operands that meet the hypotheses of each statement -/

/-- Both sides of the table's rule, and the hypothesis of its second clause. -/
theorem witness_DecoderFollowsItsTable :
    (0x00020E08 : Word) &&& rowMask (.devr 0x0E 2) = rowMatch (.devr 0x0E 2) ∧
      (Instr.devr 0x0E 2).WellFormed := by decide

theorem witness_DecodeInvertsEncode :
    (Instr.devr 0xFF 4).WellFormed ∧ (Instr.wait 0xFFFF).WellFormed := by decide

theorem witness_EncodeInvertsDecode :
    decode 0x00FFFF05 = .ok (.wait 0xFFFF) := by rfl

theorem witness_IllegalWordsAreRefused :
    (sched idle (wr .cmd 0x00050008) 0).busy = false ∧
      WritesReg (sched idle (wr .cmd 0x00050008) 0) .cmd 0x00050008 := by decide

theorem witness_IllegalWordsAreRefused_decode :
    decode 0x00050008 = .error .devrCount := by rfl

theorem witness_ResetOverridesEverything :
    (sched (running [.cslo]) { wr .cmd 0 with rst := true } 0).ports.rst = true := by decide

/-- The invariant holds in the state after reset and inside a transaction. -/
theorem witness_EveryStepKeepsInvariant : Inv State.reset ∧ Inv armed := by
  constructor <;> constructor <;> decide

/-- A state of the invariant from which SCLK rises. -/
theorem witness_ClockRisesOnlyWhileSelected :
    Inv (sched (running [.txhi 1]) (quiet false) 0) ∧
      after State.sclk (sched (running [.txhi 1]) (quiet false) 0) = some true := by
  refine ⟨?_, by decide⟩
  constructor <;> decide

/-- The completion edge of a CSD. -/
theorem witness_ClockIdlesLow :
    let s := sched { idle with busy := true, mosi := true } (quiet false) 0
    Inv s ∧ after (fun t => (t.busy, t.csN)) s = some (false, true) := by
  refine ⟨?_, by decide⟩
  constructor <;> decide

theorem witness_ChipSelectChangesOnlyByItsSteps_low :
    (after State.csN (sched { idle with busy := true, steps := [.cslo] } (quiet false) 0) = some false ∧
      (sched { idle with busy := true, steps := [.cslo] } (quiet false) 0).ports.rst = false) := by decide

/-- After a zero-wait step. -/
theorem witness_ChipSelectChangesOnlyByItsSteps_high :
    after State.csN (sched (running [.txend 0 0, .cshi]) (quiet false) 0) = some true ∧
      (sched (running [.txend 0 0, .cshi]) (quiet false) 0).ports.rst = false := by decide

theorem witness_PinsChangeOnlyAtStepEdges_idle :
    (sched idle (quiet false) 0).ports.rst = false ∧ (sched idle (quiet false) 0).busy = false := by decide

theorem witness_PinsChangeOnlyAtStepEdges_waiting :
    (sched { running [] with dly := 1 } (quiet false) 0).busy = true ∧
      (sched { running [] with dly := 1 } (quiet false) 0).dly ≠ 0 := by decide

/-- MOSI changes. -/
theorem witness_PinsChangeOnlyAtStepEdges_running :
    after pins (sched (running (txByte 0xA5 1 0x0B)) (quiet false) 0) = some (false, true, false) ∧
      (running (txByte 0xA5 1 0x0B)).busy = true ∧ (running (txByte 0xA5 1 0x0B)).dly = 0 := by decide

/-- Two hosts over one running command: one writes CMD, the other is quiet, and one has an error. -/
theorem witness_HostCannotDisturbARunningCommand :
    let s := sched (running [.hold 2]) (wr .cmd 0x3) 2
    let s' := sched { running [.hold 2] with err := true, errcode := 3 } (quiet false) 2
    SameCommand s s' ∧ s.busy = true ∧ s.remaining = 3 ∧ NoReset 3 s ∧ NoReset 3 s' ∧
      ∀ k, k < 3 → misoOf s k = misoOf s' k := by decide

/-- The three cases of the hypothesis; in the third an RXHI stands later in the list and does not run. -/
theorem witness_MisoActsOnlyThroughSamples :
    idle.busy = false ∧ { running [.rxhi 1] with dly := 1 }.dly ≠ 0 ∧
      SeqStep.rxhi 1 ∈ (running (rxByte 1)).steps ∧
      ∀ h, SeqStep.rxhi h ∉ dueNow (running (rxByte 1)).steps := by
  refine ⟨by decide, by decide, by decide, ?_⟩
  intro h
  simp [running, rxByte, dueNow, SeqStep.wait]

theorem witness_AcceptanceOfACommand_busy :
    let s := sched (running [.hold 2]) (wr .cmd 0x1) 0
    WritesReg s .cmd 0x1 ∧ s.busy = true := by decide

theorem witness_AcceptanceOfACommand_illegal :
    let s := sched idle (wr .cmd 0x0) 0
    WritesReg s .cmd 0x0 ∧ s.busy = false := by decide

theorem witness_AcceptanceOfACommand_check :
    let s := sched opened (wr .cmd 0x4) 0
    WritesReg s .cmd 0x4 ∧ s.busy = false ∧ stateCheck .recv s = some .noReadMode := by decide

theorem witness_AcceptanceOfACommand_passes :
    let s := sched idle (wr .cmd 0x1) 0
    WritesReg s .cmd 0x1 ∧ s.busy = false ∧ stateCheck .csa s = none := by decide

theorem witness_AcceptanceOfACommand_decode :
    decode 0x0 = .error .reservedOp ∧ decode 0x4 = .ok .recv ∧ decode 0x1 = .ok .csa := ⟨rfl, rfl, rfl⟩

/-- An idle machine and a busy one. -/
theorem witness_StepRunsTheDecodedCommand :
    WritesReg (given idle .csa 0) .cmd 0x1 ∧ WritesReg (given (running [.hold 2]) .csa 0) .cmd 0x1 := by decide

theorem witness_CsaStarts :
    idle.busy = false ∧ idle.csN = true := by decide

theorem witness_CsdStarts :
    opened.busy = false ∧ opened.csN = false := by decide

theorem witness_SendStarts :
    armed.busy = false ∧ armed.csN = false := by decide

theorem witness_RecvStarts :
    armed.busy = false ∧ armed.csN = false ∧ armed.rdArmed = true := by decide

/-- Outside and inside a transaction. -/
theorem witness_WaitStarts :
    idle.busy = false ∧ opened.busy = false := by decide

theorem witness_DispwStarts :
    State.reset.busy = false ∧ State.reset.csN = true := by decide

theorem witness_DevwStarts :
    State.reset.busy = false ∧ State.reset.csN = true := by decide

/-- The least and the largest count. -/
theorem witness_DevrStarts :
    idle.busy = false ∧ idle.csN = true ∧ 1 ≤ (1 : Byte).toNat ∧ (1 : Byte).toNat ≤ 4 ∧
      1 ≤ (4 : Byte).toNat ∧ (4 : Byte).toNat ≤ 4 := by decide

/-- A command that starts and one that is turned away. -/
theorem witness_CommandFrame :
    (nextOf (exec (.devr 0x0E 4) idle)).isSome = true ∧ (nextOf (exec .csd idle)).isSome = true := by decide

/-- Clauses 1 and 2. -/
theorem witness_MisuseCodesAndPriority_busy :
    (running []).err = false ∧ (running []).busy = true := by decide

/-- Clauses 3 and 4; the word 0 is illegal (witness_AcceptanceOfACommand_decode). -/
theorem witness_MisuseCodesAndPriority_illegal :
    idle.err = false ∧ idle.busy = false ∧ (0 : Byte).toNat = 0 ∧ 4 < (5 : Byte).toNat := by decide

/-- Clauses 5 and 7. -/
theorem witness_MisuseCodesAndPriority_open :
    opened.err = false ∧ opened.busy = false ∧ opened.csN = false ∧ opened.rdArmed = false := by decide

/-- Clause 6. -/
theorem witness_MisuseCodesAndPriority_closed :
    idle.err = false ∧ idle.busy = false ∧ idle.csN = true := by decide

theorem witness_DiscardedCommand_busy :
    let s := sched (running (txByte 0xA5 1 0x0B)) (wr .cmd 0x5A03) 0
    WritesReg s .cmd 0x5A03 ∧ s.busy = true := by decide

theorem witness_DiscardedCommand_illegal :
    let s := sched idle (wr .cmd 0x0) 0
    WritesReg s .cmd 0x0 ∧ s.busy = false := by decide

theorem witness_DiscardedCommand_check :
    let s := sched opened (wr .cmd 0x1) 0
    WritesReg s .cmd 0x1 ∧ s.busy = false ∧ stateCheck .csa s = some .txnOpen := by decide

theorem witness_ErrorsStick_cleared :
    WritesReg (sched opened (wr .status 0x100) 0) .status 0x100 ∧ (0x100 : Word).getLsbD 8 = true := by decide

theorem witness_ErrorsStick_first :
    idle.err = false := by decide

theorem witness_ErrorsStick_kept :
    let s := sched { idle with err := true, errcode := 3 } (wr .status 0xFFFFFEFF) 0
    s.ports.rst = false ∧ s.err = true ∧
      ¬ (∃ v : Word, WritesReg s .status v ∧ v.getLsbD 8 = true) := by
  refine ⟨rfl, rfl, ?_⟩
  rintro ⟨v, ⟨-, -, -, -, hv⟩, hb⟩
  subst hv
  revert hb
  decide

theorem witness_ErrorsDoNotBlock :
    idle.busy = false ∧ (Instr.devr 0 1).WellFormed ∧ stateCheck (.devr 0 1) idle = none := by decide

/-- The first and the last bit. -/
theorem witness_RegisterReadLayout :
    0 < 32 ∧ 31 < 32 := by decide

theorem witness_ReadsChangeNoState_read :
    let p := (sched idle (rd .pins true) 0).ports
    p.busSel = true ∧ p.busWe = false ∧ p.busAddr = Reg.slot .pins ∧ p.rst = false := by decide

theorem witness_ReadsChangeNoState_none :
    (sched idle (quiet true) 0).ports.busSel = false ∧
      (sched idle (wr .cmd 0) 0).ports.busWe = true := by decide

theorem witness_IgnoredWrites :
    WritesReg (sched idle (wr .rxdata 0xDEADBEEF) 0) .rxdata 0xDEADBEEF ∧
      WritesReg (sched idle (wr .pins 1) 0) .pins 1 ∧
      WritesReg (sched idle (wr .reserved 1) 0) .reserved 1 ∧
      WritesReg (sched idle (wr .status 0xFFFFFEFF) 0) .status 0xFFFFFEFF ∧
      (0xFFFFFEFF : Word).getLsbD 8 = false := by decide

theorem witness_HalfperWrite :
    WritesReg (sched idle (wr .halfper 0x10000) 0) .halfper 0x10000 ∧ idle.busy = false ∧
      WritesReg (sched (running []) (wr .halfper 0x10000) 0) .halfper 0x10000 ∧ (running []).busy = true := by decide

theorem witness_SettleWrite :
    WritesReg (sched idle (wr .settle 0x1FFFF) 0) .settle 0x1FFFF ∧ idle.busy = false ∧
      WritesReg (sched (running []) (wr .settle 0x1FFFF) 0) .settle 0x1FFFF ∧ (running []).busy = true := by decide

theorem witness_ProfileWrite :
    WritesReg (sched idle (wr .profile 0xFFFF1234) 0) .profile 0xFFFF1234 ∧ idle.busy = false ∧
      WritesReg (sched (running []) (wr .profile 0xFFFF1234) 0) .profile 0xFFFF1234 ∧ (running []).busy = true := by decide

/-- A due step of each kind, with the host idle. -/
theorem witness_StepActionsAndWaits :
    ∀ x ∈ [SeqStep.cslo, .cshi, .ckidle, .txlo 0 0xA5 1, .txlo 7 0xA5 1, .txhi 1, .rxlo 0 1, .rxlo 7 1,
        .rxhi 1, .hold 1, .txend 0x0B 0x0B, .rxend],
      let s := sched (running [x]) (quiet true) 0
      s.busy = true ∧ s.dly = 0 ∧ s.ports.rst = false ∧ s.ports.busSel = false ∧ (1 : Count) ≠ 0 ∧
        s.steps = x :: [] := by decide

/-- The shortest hold and a longer one. -/
theorem witness_HoldKeepsEveryPin :
    (let s := sched (running [.hold 1]) (quiet true) 0
     s.busy = true ∧ s.dly = 0 ∧ (SeqStep.hold 1).wait ≠ 0 ∧ NoReset 1 s) ∧
    (let s := sched (running [.hold 3, .cshi]) (wr .halfper 5) 2
     s.busy = true ∧ s.dly = 0 ∧ (SeqStep.hold 3).wait ≠ 0 ∧ NoReset 3 s) := by decide

/-- At the first edge and at the completion edge. -/
theorem witness_StepsRunOnSchedule :
    let s := sched { running [.cshi, .ckidle] with dly := 2 } (quiet true) 4
    s.busy = true ∧ 0 < s.dly.toNat + sumWaits s.steps + 1 ∧
      4 < s.dly.toNat + sumWaits s.steps + 1 ∧ NoReset 5 s := by decide

theorem witness_CommandDurations :
    let s := given { idle with st := 0 } (.wait 3) 4
    (Instr.wait 3).WellFormed ∧ s.busy = false ∧ stateCheck (.wait 3) s = none ∧
      Presents s (.wait 3) ∧ NoReset (duration (.wait 3) s + 2) s := by decide

theorem witness_CsaOpensATransaction :
    let s := given idle .csa 2
    s.busy = false ∧ s.csN = true ∧ Presents s .csa ∧ NoReset 3 s := by decide

theorem witness_CsdClosesTheTransaction :
    let s := given armed .csd 3
    s.busy = false ∧ s.csN = false ∧ Presents s .csd ∧ NoReset 4 s := by decide

/-- Bits 0 and 7 are any `Fin 8`; the hold's first cycle is k = 0. -/
theorem witness_SendDrivesBitsMsbFirst :
    let s := given opened (.send 0x3E) 17
    s.busy = false ∧ s.csN = false ∧ Presents s (.send 0x3E) ∧ NoReset (16 * s.hp.toNat + 2) s ∧
      0 < s.hp.toNat := by decide

theorem witness_SendArmsReadsOnFirstByte :
    let s := given opened (.send 0x0B) 17
    s.busy = false ∧ s.csN = false ∧ Presents s (.send 0x0B) ∧ NoReset (16 * s.hp.toNat + 2) s := by decide

theorem witness_RecvAssemblesTheSampledByte :
    let s := given armed .recv 17
    s.busy = false ∧ s.csN = false ∧ s.rdArmed = true ∧ Presents s .recv ∧
      NoReset (16 * s.hp.toNat + 2) s := by decide

/-- N = 0 outside a transaction, and N = 3 inside one. -/
theorem witness_WaitHoldsEverything :
    (let s := given idle (.wait 0) 1
     s.busy = false ∧ Presents s (.wait 0) ∧ NoReset ((0 : Count).toNat + 2) s) ∧
    (let s := given opened (.wait 3) 4
     s.busy = false ∧ Presents s (.wait 3) ∧ NoReset ((3 : Count).toNat + 2) s) := by decide

theorem witness_DevrReturnsTheBytesRead :
    let s := given idle (.devr 0x0E 1) 52
    s.busy = false ∧ s.csN = true ∧ 1 ≤ (1 : Byte).toNat ∧ (1 : Byte).toNat ≤ 4 ∧
      Presents s (.devr 0x0E 1) ∧ NoReset ((32 + 16 * (1 : Byte).toNat) * s.hp.toNat + 5) s := by decide

/-- The largest count: RXDATA is filled. -/
theorem witness_DevrReturnsTheBytesRead_four :
    let s := given idle (.devr 0x0E 4) 100
    s.busy = false ∧ s.csN = true ∧ 1 ≤ (4 : Byte).toNat ∧ (4 : Byte).toNat ≤ 4 ∧
      Presents s (.devr 0x0E 4) ∧ NoReset ((32 + 16 * (4 : Byte).toNat) * s.hp.toNat + 5) s := by
  decide

theorem witness_DispwSendsItsFrame :
    idle.busy = false ∧ idle.csN = true ∧ idle.sclk = false ∧ idle.hp ≠ 0 := by decide

theorem witness_DevwSendsItsFrame :
    idle.busy = false ∧ idle.csN = true ∧ idle.sclk = false ∧ idle.hp ≠ 0 := by decide

theorem witness_DispwEqualsItsPrimitives :
    idle.busy = false ∧ idle.csN = true ∧ idle.sclk = false ∧ idle.hp ≠ 0 := by decide

/-- A narrow request, a misaligned one and an aligned one. -/
theorem witness_BridgeRefusesOtherAccesses :
    (2 : Nat) ≠ 4 ∧ (0x11 : Word).toNat % 4 ≠ 0 ∧ (0x1C : Word).toNat % 4 = 0 := by decide

/-- The operands at the ends of their ranges, clause by clause. -/
theorem witness_AssemblerRefusesOutOfRange :
    (255 : Nat) < 256 ∧ (256 : Nat) ≤ 256 ∧ (65535 : Nat) < 65536 ∧ (65536 : Nat) ≤ 65536 ∧
      (256 ≤ 256 ∨ 256 ≤ 255) ∧ (256 ≤ 255 ∨ 256 ≤ 256) ∧ (1 ≤ 1 ∧ 1 ≤ 4) ∧ (1 ≤ 4 ∧ 4 ≤ 4) ∧
      (256 ≤ 255 ∨ 0 = 0 ∨ 4 < 0) ∧ (256 ≤ 255 ∨ 5 = 0 ∨ 4 < 5) := by decide

/-- An idle machine with a read, and a busy one with no access. -/
theorem witness_EdgeWithoutAWrite :
    (let s := sched idle (rd .pins true) 0
     s.ports.rst = false ∧ s.ports.busWe = false ∧ s.busy = false) ∧
    (let s := sched (running (txByte 0xA5 1 0x0B)) (quiet true) 0
     s.ports.rst = false ∧ s.ports.busSel = false ∧ s.busy = true) := by decide

/-- WAIT 0 just accepted (DLY = 0), and a last step's wait under way. -/
theorem witness_EmptyStepsLeaveOnlyTheWait :
    (let s := sched (running []) (quiet true) 0
     Inv s ∧ s.steps = [] ∧ NoReset (s.dly.toNat + 1) s ∧ s.busy = true) ∧
    (let s := sched { running [] with dly := 2 } (wr .halfper 5) 2
     Inv s ∧ s.steps = [] ∧ NoReset (s.dly.toNat + 1) s ∧ s.busy = true) := by
  refine ⟨⟨?_, by decide, by decide, by decide⟩, ⟨?_, by decide, by decide, by decide⟩⟩ <;>
    constructor <;> decide

end Sys2Proof.Tests
end

section
/-! SUPPORT. The machine's invariant `Safety.Inv` after each kind of change an edge can make: error
entry and clearing, configuration writes, the acceptance of a command, the sequencer and reset. -/

namespace Sys2Proof.Safety

open Sys2Proof.Machine

/-- Settles O9: each clause of the invariant, at the values of R37's table. -/
theorem resetMeetsInvariant : Obligations.ResetMeetsInvariant := by
  unfold Obligations.ResetMeetsInvariant
  constructor <;> decide

/-- R221: an error records one of the codes 1 to 5. -/
theorem misuseCode_range (m : Misuse) : 1 ≤ m.code.toNat ∧ m.code.toNat ≤ 5 := by
  cases m <;> decide

/-! ### Changes outside the running command -/

namespace Inv

variable {s : State}

theorem setInputs (h : Inv s) (ps : List PortIn) (n : Nat) :
    Inv { s with inputs := ps, edge := n } := { h with }

theorem nextCycle (h : Inv s) : Inv s.nextCycle := h.setInputs _ _

theorem setHalfPeriod (h : Inv s) {v : Count} (hv : v ≠ 0) : Inv { s with hp := v } :=
  { h with half_period_legal := hv }

theorem setSettle (h : Inv s) (v : Count) : Inv { s with st := v } := { h with }

theorem setProfile (h : Inv s) (w r : Byte) : Inv { s with wrop := w, rdop := r } := { h with }

theorem setRxdata (h : Inv s) (v : Word) : Inv { s with rxdata := v } := { h with }

theorem clearError (h : Inv s) : Inv s.clearError :=
  { h with no_error_no_code := fun _ => rfl, error_has_code := nofun }

theorem raise (h : Inv s) (m : Misuse) : Inv (s.raise m) := by
  refine { h with no_error_no_code := nofun, error_has_code := fun _ => ?_ }
  rw [State.raise_errcode]
  split
  · exact h.error_has_code ‹_›
  · exact misuseCode_range m

theorem resetEdge (s : State) : Inv s.resetEdge := setInputs resetMeetsInvariant _ _

end Inv

/-! ### The step lists of the commands -/

/-- The clauses of the invariant about the steps still to run, for a list `l` not yet begun. -/
structure Startable (s : State) (l : List SeqStep) : Prop where
  waits_legal : ∀ t ∈ l, legalWait t = true
  pins_disciplined : disciplined s.csN s.sclk l = true

/-- A transmitted byte needs the token, keeps it, and leaves SCLK high. -/
@[simp] theorem disciplined_txByte_append (c : Bool) (b : Byte) (h : Count) (r : Byte)
    (rest : List SeqStep) :
    disciplined false c (txByte b h r ++ rest) = disciplined false true rest := by
  simp [txByte, disciplined]

/-- A received byte needs the token, keeps it, and leaves SCLK high. -/
@[simp] theorem disciplined_rxByte_append (c : Bool) (h : Count) (rest : List SeqStep) :
    disciplined false c (rxByte h ++ rest) = disciplined false true rest := by
  simp [rxByte, disciplined]

@[simp] theorem disciplined_rxBytes_append (k : Nat) (h : Count) (rest : List SeqStep) :
    disciplined false true (rxBytes k h ++ rest) = disciplined false true rest := by
  induction k with
  | zero => rfl
  | succ k ih => rw [rxBytes, List.append_assoc, disciplined_rxByte_append, ih]

@[simp] theorem disciplined_holdSteps_append (n c : Bool) (w : Count) (rest : List SeqStep) :
    disciplined n c (holdSteps w ++ rest) = disciplined n c rest := by
  unfold holdSteps
  split <;> rfl

theorem txByte_waits_legal {h : Count} (hh : h ≠ 0) (b r : Byte) :
    ∀ t ∈ txByte b h r, legalWait t = true := by
  simpa [txByte, legalWait] using hh

theorem rxByte_waits_legal {h : Count} (hh : h ≠ 0) : ∀ t ∈ rxByte h, legalWait t = true := by
  simpa [rxByte, legalWait] using hh

theorem rxBytes_waits_legal {h : Count} (hh : h ≠ 0) (k : Nat) :
    ∀ t ∈ rxBytes k h, legalWait t = true := by
  induction k with
  | zero => nofun
  | succ k ih => exact List.forall_mem_append.2 ⟨rxByte_waits_legal hh, ih⟩

/-- R122: a step list never contains `HOLD(0)`. -/
theorem holdSteps_waits_legal (n : Count) : ∀ t ∈ holdSteps n, legalWait t = true := by
  unfold holdSteps
  split <;> simp_all [legalWait]

theorem closeSteps_waits_legal : ∀ t ∈ closeSteps, legalWait t = true := by decide

/-! ### State checks -/

theorem needClosed_eq_none {s : State} : s.needClosed = none ↔ s.csN = true := by
  simp [State.needClosed, State.cs]

theorem needOpen_eq_none {s : State} : s.needOpen = none ↔ s.csN = false := by
  simp [State.needOpen, State.cs]

theorem csN_of_needReadMode {s : State} (h : s.needReadMode = none) : s.csN = false := by
  cases hc : s.csN <;> simp_all [State.needReadMode, State.cs]

theorem csN_of_devrCheck {s : State} {cnt : Byte} (h : s.devrCheck cnt = none) : s.csN = true := by
  unfold State.devrCheck at h
  split at h
  · exact needClosed_eq_none.1 h
  · cases h

/-! ### Acceptance of a command (R121) -/

namespace Inv

variable {s : State}

/-- R151, R152: with chip select released and no step to run, SCLK is low. -/
theorem idle_clock_low (h : Inv s) (idle : s.busy = false) (hc : s.csN = true) : s.sclk = false := by
  have hd := h.pins_disciplined
  rw [(h.idle_is_empty idle).1] at hd
  simpa [disciplined, hc] using hd

theorem accept (h : Inv s) {l : List SeqStep} (hl : Startable s l) : Inv (s.accept l) :=
  { h with
    idle_is_empty := nofun
    waits_legal := hl.waits_legal
    pins_disciplined := hl.pins_disciplined }

theorem attempt (h : Inv s) (check : Option Misuse) {started t : State}
    (hs : s.busy = false → check = none → Inv started)
    (ht : s.attempt check started = .next t) : Inv t := by
  rcases attempt_cases s check started with ⟨m, he⟩ | ⟨idle, hc, he⟩ <;> cases he.symm.trans ht
  · exact h.raise m
  · exact hs idle hc

/-- The frame of every transaction command: the token is taken with the clock low, what moves in
between keeps it, and it is given back with the clock returned to 0 (R151, R152). -/
theorem transaction_startable (h : Inv s) (idle : s.busy = false) (hc : s.csN = true)
    (body : List SeqStep) (hw : ∀ t ∈ body, legalWait t = true)
    (hd : disciplined false false (body ++ closeSteps) = true) :
    Startable s ([.cslo] ++ body ++ closeSteps) where
  waits_legal := by
    refine List.forall_mem_append.2 ⟨List.forall_mem_append.2 ⟨by decide, hw⟩, ?_⟩
    exact closeSteps_waits_legal
  pins_disciplined := by simpa [disciplined, hc, h.idle_clock_low idle hc] using hd

theorem csa_startable (h : Inv s) (idle : s.busy = false) (hc : s.csN = true) :
    Startable s csaSteps :=
  ⟨by decide, by simp [csaSteps, disciplined, hc, h.idle_clock_low idle hc]⟩

theorem csd_startable (hc : s.csN = false) : Startable s csdSteps :=
  ⟨closeSteps_waits_legal, by simp [csdSteps, closeSteps, disciplined, hc]⟩

theorem send_startable (h : Inv s) (hc : s.csN = false) (b : Byte) :
    Startable s (txByte b s.hp s.rdop) :=
  ⟨txByte_waits_legal h.half_period_legal b _, by simp [txByte, disciplined, hc]⟩

theorem recv_startable (h : Inv s) (hc : s.csN = false) : Startable s (rxByte s.hp) :=
  ⟨rxByte_waits_legal h.half_period_legal, by simp [rxByte, disciplined, hc]⟩

theorem wait_startable (h : Inv s) (idle : s.busy = false) (n : Count) :
    Startable s (holdSteps n) := by
  have hd := h.pins_disciplined
  rw [(h.idle_is_empty idle).1, ← disciplined_holdSteps_append s.csN s.sclk n, List.append_nil] at hd
  exact ⟨holdSteps_waits_legal n, hd⟩

theorem dispw_startable (h : Inv s) (idle : s.busy = false) (hc : s.csN = true) (a d : Byte) :
    Startable s (dispwSteps a d s) := by
  have hw := txByte_waits_legal h.half_period_legal
  have := h.transaction_startable idle hc
    (txByte a s.hp s.rdop ++ holdSteps s.st ++ txByte d s.hp s.rdop)
    (by simp only [List.forall_mem_append]; exact ⟨⟨hw _ _, holdSteps_waits_legal _⟩, hw _ _⟩)
    (by simp [closeSteps, disciplined])
  simpa [dispwSteps] using this

theorem devw_startable (h : Inv s) (idle : s.busy = false) (hc : s.csN = true) (a d : Byte) :
    Startable s (devwSteps a d s) := by
  have hw := txByte_waits_legal h.half_period_legal
  have := h.transaction_startable idle hc
    (txByte s.wrop s.hp s.rdop ++ txByte a s.hp s.rdop ++ txByte d s.hp s.rdop)
    (by simp only [List.forall_mem_append]; exact ⟨⟨hw _ _, hw _ _⟩, hw _ _⟩)
    (by simp [closeSteps, disciplined])
  simpa [devwSteps] using this

theorem devr_startable (h : Inv s) (idle : s.busy = false) (hc : s.csN = true) (a : Byte) (k : Nat) :
    Startable s (devrSteps a k s) := by
  have hw := txByte_waits_legal h.half_period_legal
  have := h.transaction_startable idle hc
    (txByte s.rdop s.hp s.rdop ++ txByte a s.hp s.rdop ++ rxBytes k s.hp)
    (by simp only [List.forall_mem_append]
        exact ⟨⟨hw _ _, hw _ _⟩, rxBytes_waits_legal h.half_period_legal k⟩)
    (by simp [closeSteps, disciplined])
  simpa [devrSteps] using this

theorem exec (h : Inv s) {i : Instr} {t : State} (ht : exec i s = .next t) : Inv t := by
  cases i with
  | csa => exact h.attempt _ (fun idle hc => h.accept (h.csa_startable idle (needClosed_eq_none.1 hc))) ht
  | csd => exact h.attempt _ (fun _ hc => h.accept (csd_startable (needOpen_eq_none.1 hc))) ht
  | send b => exact h.attempt _ (fun _ hc => h.accept (h.send_startable (needOpen_eq_none.1 hc) b)) ht
  | recv => exact h.attempt _ (fun _ hc => h.accept (h.recv_startable (csN_of_needReadMode hc))) ht
  | wait n => exact h.attempt none (fun idle _ => h.accept (h.wait_startable idle n)) ht
  | dispw a d =>
    exact h.attempt _ (fun idle hc => h.accept (h.dispw_startable idle (needClosed_eq_none.1 hc) a d)) ht
  | devw a d =>
    exact h.attempt _ (fun idle hc => h.accept (h.devw_startable idle (needClosed_eq_none.1 hc) a d)) ht
  | devr a cnt =>
    exact h.attempt _ (fun idle hc =>
      (h.accept (h.devr_startable idle (csN_of_devrCheck hc) a cnt.toNat)).setRxdata 0) ht

theorem access (h : Inv s) {t : State} (ha : AccessEffect s t) : Inv t := by
  cases ha with
  | nothing => exact h
  | raised m => exact h.raise m
  | cleared => exact h.clearError
  | halfper v hv _ => exact h.setHalfPeriod hv
  | settle v _ => exact h.setSettle v
  | profile w r _ => exact h.setProfile w r
  | started _ _ _ _ run => exact h.exec run

end Inv

/-! ### The sequencer -/

/-- The discipline of the list is the discipline of its rest after its first step has run. -/
theorem disciplined_action {m : Bool} {s : State} {t : SeqStep} {rest : List SeqStep}
    (h : disciplined s.csN s.sclk (t :: rest) = true) :
    disciplined (t.action m s).csN (t.action m s).sclk rest = true := by
  cases t
  case ckidle => exact h
  case hold => exact h
  all_goals exact (Bool.and_eq_true_iff.1 h).2

theorem closed_is_unarmed_action {m : Bool} {s : State} (t : SeqStep)
    (h : s.csN = true → s.first = false ∧ s.rdArmed = false)
    (hc : (t.action m s).csN = true) :
    (t.action m s).first = false ∧ (t.action m s).rdArmed = false := by
  cases t <;> simp_all [SeqStep.action]

theorem first_is_unarmed_action {m : Bool} {s : State} (t : SeqStep)
    (h : s.first = true → s.rdArmed = false) (hf : (t.action m s).first = true) :
    (t.action m s).rdArmed = false := by
  cases t <;> simp_all [SeqStep.action]

namespace Inv

variable {s : State}

/-- A step at the head of the list runs and is removed. -/
theorem action (m : Bool) {t : SeqStep} {rest : List SeqStep} (hb : s.busy = true)
    (h : Inv { s with steps := t :: rest }) : Inv { t.action m s with steps := rest } := by
  have same := action_sameRest m s t
  exact
    { idle_is_empty := fun hi => by simp [hb] at hi
      closed_is_unarmed := closed_is_unarmed_action t h.closed_is_unarmed
      first_is_unarmed := first_is_unarmed_action t h.first_is_unarmed
      no_error_no_code := by simpa only [same.err, same.errcode] using h.no_error_no_code
      error_has_code := by simpa only [same.err, same.errcode] using h.error_has_code
      half_period_legal := by simpa only [same.hp] using h.half_period_legal
      waits_legal := (List.forall_mem_cons.1 h.waits_legal).2
      pins_disciplined := disciplined_action h.pins_disciplined }

theorem setDelay (h : Inv s) (hb : s.busy = true) (n : Count) : Inv { s with dly := n } :=
  { h with idle_is_empty := fun hi => by simp [hb] at hi }

theorem complete (h : Inv { s with steps := [] }) : Inv s.complete :=
  { h with idle_is_empty := fun _ => ⟨rfl, rfl⟩ }

theorem runSteps (m : Bool) (l : List SeqStep) (hb : s.busy = true)
    (h : Inv { s with steps := l }) : Inv (State.runSteps m l s) := by
  induction l generalizing s with
  | nil => exact h.complete
  | cons t rest ih =>
    have ha : Inv { t.action m s with steps := rest } := action m hb h
    have hb' : (t.action m s).busy = true := by rw [action_busy, hb]
    by_cases hw : t.wait = 0
    · rw [runSteps_zero m rest s hw]
      exact ih hb' ha
    · rw [runSteps_waiting m rest s hw]
      exact ha.setDelay hb' _

theorem advance (h : Inv s) (m : Bool) (hb : s.busy = true) : Inv (s.advance m) := by
  by_cases hd : s.dly = 0
  · rw [advance_running m hd]
    exact runSteps m s.steps hb h
  · rw [advance_waiting m hd]
    exact h.setDelay hb _

end Inv

/-- Settles O10: reset gives R37's state, and otherwise the host access keeps the invariant and so does
the sequencer's advance after it. -/
theorem everyStepKeepsInvariant : Obligations.EveryStepKeepsInvariant := by
  unfold Obligations.EveryStepKeepsInvariant
  intro s t h hstep
  rcases step_cases s with ⟨-, he⟩ | ⟨-, u, -, ha, he⟩ <;> cases he.symm.trans hstep
  · exact Inv.resetEdge s
  · have hu : Inv u := h.access ha
    cases hb : s.busy with
    | false => exact hu.nextCycle
    | true =>
      have hbu : u.busy = true := by rw [access_while_busy hb ha, ← hb]
      exact (hu.advance _ hbu).nextCycle

end Sys2Proof.Safety
end

section
/-! SUPPORT. The values of the registers after reset, and the words a host reads from them, bit by bit
(10_state.md R23 to R30, R37). -/

namespace Sys2Proof.Machine

/-- Settles O6: the values of `State.reset`, row by row. -/
theorem resetStateValues : Obligations.ResetStateValues := by
  unfold Obligations.ResetStateValues
  decide

/-- Zeros above a register are its value at the greater width. -/
theorem zeros_append_eq_setWidth {w : Nat} (z : Nat) (x : BitVec w) :
    0#z ++ x = x.setWidth (z + w) := by
  rw [BitVec.setWidth_eq_append (by omega)]
  ext k
  simp

/-- The bits of a 16-bit register read with zeros above it (R26, R28). -/
theorem getLsbD_zeros_append (x : Count) (k : Nat) :
    (0#16 ++ x : Word).getLsbD k = if k < 16 then x.getLsbD k else false := by
  rw [BitVec.getLsbD_append, BitVec.getLsbD_zero]

theorem status_getLsbD (s : State) (k : Nat) :
    s.status.getLsbD k =
      (if k = 0 then s.busy else if k = 1 then !s.csN else if k = 2 then s.rdArmed
       else if k = 3 then s.first else if k = 8 then s.err
       else if 12 ≤ k ∧ k ≤ 15 then s.errcode.getLsbD (k - 12) else false) := by
  simp only [State.status, State.cs, BitVec.getLsbD_append, BitVec.getLsbD_zero,
    BitVec.getLsbD_ofBool]
  rcases Nat.lt_or_ge k 12 with flags | code
  · interval_cases k <;> simp
  · have index : k - 1 - 1 - 1 - 1 - 4 - 1 - 3 = k - 12 := by omega
    have field : k - 12 < 4 ↔ 12 ≤ k ∧ k ≤ 15 := by omega
    simp (disch := omega) only [index, field, if_neg]

theorem profileWord_getLsbD (s : State) (k : Nat) :
    s.profileWord.getLsbD k =
      (if k < 8 then s.wrop.getLsbD k else if k < 16 then s.rdop.getLsbD (k - 8) else false) := by
  simp only [State.profileWord, BitVec.getLsbD_append, BitVec.getLsbD_zero]
  by_cases low : k < 8
  · rw [if_pos low, if_pos low]
  · simp only [low, if_false, show k - 8 < 8 ↔ k < 16 by omega]

theorem pinsWord_getLsbD (s : State) (m : Bool) (k : Nat) :
    (s.pinsWord m).getLsbD k =
      (if k = 0 then s.sclk else if k = 1 then s.mosi else if k = 2 then s.csN
       else if k = 3 then m else false) := by
  simp only [State.pinsWord, BitVec.getLsbD_append, BitVec.getLsbD_zero, BitVec.getLsbD_ofBool]
  rcases k with _ | _ | _ | _ | k <;> simp

/-- Settles O32: slot by slot, by the layout of each register. -/
theorem registerReadLayout : Obligations.RegisterReadLayout := by
  unfold Obligations.RegisterReadLayout
  intro s m k _
  exact ⟨status_getLsbD s k, rfl, rfl, getLsbD_zeros_append s.hp k, getLsbD_zeros_append s.st k,
    profileWord_getLsbD s k, pinsWord_getLsbD s m k, rfl⟩

end Sys2Proof.Machine
end

section
/-! SUPPORT. Host writes that the edge ignores, and the writes of the configuration registers. -/

namespace Sys2Proof.Machine

open Sys2Proof.Safety

/-- A write that changes nothing is the idle edge. -/
theorem step_write_nothing {s : State} {r : Reg} {v : Word} (h : WritesReg s r v)
    (hw : hostWrite r v s = .next s) : step s = step (s.withAccess .idle) := by
  rw [step_write h hw, step_withAccess_idle]

/-- Settles O34: each of these writes answers the state it is given. -/
theorem ignoredWrites : Obligations.IgnoredWrites := by
  unfold Obligations.IgnoredWrites
  intro s v
  constructor
  · intro r hr h
    have hw : hostWrite r v s = .next s := by
      cases r with
      | rxdata | pins | reserved => rfl
      | status | cmd | halfper | settle | profile => simp at hr
    exact step_write_nothing h hw
  · intro h hbit
    have hs : s.writeStatus v = s := by
      rw [State.writeStatus, hbit]
      rfl
    exact step_write_nothing h (congrArg _ hs)

/-- A write of a configuration register while idle stores the new value and changes nothing else. -/
theorem step_configWrite_idle {s new : State} {r : Reg} {v : Word} (h : WritesReg s r v)
    (hw : hostWrite r v s = .next (s.writeIfIdle new)) (hb : s.busy = false) :
    step s = .next new.nextCycle := by
  have hn : s.writeIfIdle new = new := by simp [State.writeIfIdle, hb]
  rw [step_write h (hw.trans (congrArg _ hn)), hb]
  rfl

/-- A write of a configuration register while busy is the idle edge with `Misuse(BUSY)` recorded. -/
theorem step_configWrite_busy {s new : State} {r : Reg} {v : Word} (h : WritesReg s r v)
    (hw : hostWrite r v s = .next (s.writeIfIdle new)) (hb : s.busy = true) :
    ∃ u, step (s.withAccess .idle) = .next u ∧
      step s = .next { u with err := true, errcode := if s.err = true then s.errcode else 2 } := by
  have hn : s.writeIfIdle new = s.raise .busy := by simp [State.writeIfIdle, hb]
  exact step_write_error h (hw.trans (congrArg _ hn))

/-- PROFILE as read, with RDOP shifted to its place. -/
theorem profileWord_eq (s : State) :
    s.profileWord = s.rdop.setWidth 32 <<< 8 ||| s.wrop.setWidth 32 := by
  rw [State.profileWord, zeros_append_eq_setWidth, BitVec.append_def, BitVec.shiftLeftZeroExtend_eq,
    BitVec.setWidth'_eq, BitVec.setWidth_setWidth (by decide)]

/-- Settles O35: R26, with the two kinds of edge from `step_configWrite_idle` and
`step_configWrite_busy`. -/
theorem halfperWrite : Obligations.HalfperWrite := by
  unfold Obligations.HalfperWrite
  refine ⟨rfl, fun s _ => zeros_append_eq_setWidth 16 s.hp, fun s v h => ?_⟩
  exact ⟨step_configWrite_idle h rfl, step_configWrite_busy h rfl⟩

/-- Settles O36: R28, as for HALFPER. -/
theorem settleWrite : Obligations.SettleWrite := by
  unfold Obligations.SettleWrite
  refine ⟨rfl, fun s _ => zeros_append_eq_setWidth 16 s.st, fun s v h => ?_⟩
  exact ⟨step_configWrite_idle h rfl, step_configWrite_busy h rfl⟩

/-- Settles O37: R27, as for HALFPER. -/
theorem profileWrite : Obligations.ProfileWrite := by
  unfold Obligations.ProfileWrite
  refine ⟨rfl, rfl, fun s _ => profileWord_eq s, fun s v h => ?_⟩
  exact ⟨step_configWrite_idle h rfl, step_configWrite_busy h rfl⟩

end Sys2Proof.Machine
end

section
/-! SUPPORT. The schedule of input ports acts on an edge only through the current ports, and MISO among
them only through an `RXHI` that runs at the edge. -/

namespace Sys2Proof.Machine

open Sys2Proof.Safety

/-! ### The scheduled inputs play no part in a host access -/

/-- The same machine before another schedule of input ports. -/
def State.withInputs (s : State) (ps : List PortIn) : State := { s with inputs := ps }

theorem withInputs_nextCycle {s : State} {ps : List PortIn} (h : ps.tail = s.inputs.tail) :
    (s.withInputs ps).nextCycle = s.nextCycle := by
  simp only [State.nextCycle, State.withInputs, h]

theorem attempt_withInputs {s started t : State} (check : Option Misuse) (ps : List PortIn)
    (h : s.attempt check started = .next t) :
    (s.withInputs ps).attempt check (started.withInputs ps) = .next (t.withInputs ps) := by
  have hb' : (s.withInputs ps).busy = s.busy := rfl
  cases hb : s.busy with
  | true =>
    cases (attempt_busy hb check started).symm.trans h
    exact attempt_busy (hb'.trans hb) _ _
  | false =>
    cases check with
    | none =>
      cases (attempt_idle hb started).symm.trans h
      exact attempt_idle (hb'.trans hb) _
    | some m =>
      cases (attempt_rejected hb m started).symm.trans h
      exact attempt_rejected (hb'.trans hb) m _

theorem exec_withInputs {i : Instr} {s t : State} (ps : List PortIn) (h : exec i s = .next t) :
    exec i (s.withInputs ps) = .next (t.withInputs ps) := by
  cases i with
  | wait n => exact attempt_withInputs none ps h
  | csa | csd | send | recv | dispw | devw | devr => exact attempt_withInputs _ ps h

/-- An illegal word presented while idle raises `Misuse(ILLEGAL)` (R95, R121). -/
theorem cmdWrite_illegal {w : Word} {s : State} {e : Illegal} (hb : s.busy = false)
    (hd : decode w = .error e) : cmdWrite w s = .next (s.raise .illegal) := by
  simp [cmdWrite, hb, hd]

theorem cmdWrite_withInputs {w : Word} {s t : State} (ps : List PortIn)
    (h : cmdWrite w s = .next t) : cmdWrite w (s.withInputs ps) = .next (t.withInputs ps) := by
  have hb' : (s.withInputs ps).busy = s.busy := rfl
  cases hb : s.busy with
  | true =>
    cases (cmdWrite_busy w hb).symm.trans h
    exact cmdWrite_busy w (hb'.trans hb)
  | false =>
    cases hd : decode w with
    | error e =>
      cases (cmdWrite_illegal hb hd).symm.trans h
      exact cmdWrite_illegal (hb'.trans hb) hd
    | ok i =>
      rw [cmdWrite_idle hb hd] at h
      exact (cmdWrite_idle (hb'.trans hb) hd).trans (exec_withInputs ps h)

theorem writeIfIdle_withInputs (s new : State) (ps : List PortIn) :
    (s.withInputs ps).writeIfIdle (new.withInputs ps) =
      (s.writeIfIdle new).withInputs ps := by
  have hb' : (s.withInputs ps).busy = s.busy := rfl
  unfold State.writeIfIdle
  rw [hb']
  split <;> rfl

theorem writeStatus_withInputs (s : State) (v : Word) (ps : List PortIn) :
    (s.withInputs ps).writeStatus v = (s.writeStatus v).withInputs ps := by
  unfold State.writeStatus
  cases v.getLsbD 8 <;> rfl

theorem busWrite_withInputs (s : State) (v : Word) (r : Reg) (ps : List PortIn) :
    (s.withInputs ps).busWrite v r = (s.busWrite v r).withInputs ps := by
  cases r with
  | cmd | rxdata | pins | reserved => rfl
  | status => exact writeStatus_withInputs s v ps
  | halfper => exact writeIfIdle_withInputs s { s with hp := halfperOf v } ps
  | settle => exact writeIfIdle_withInputs s { s with st := v.extractLsb' 0 16 } ps
  | profile =>
    exact writeIfIdle_withInputs s { s with wrop := v.extractLsb' 0 8, rdop := v.extractLsb' 8 8 } ps

/-- A host write of any register but CMD (R61). -/
theorem hostWrite_of_ne_cmd {r : Reg} (hr : r ≠ .cmd) (v : Word) (s : State) :
    hostWrite r v s = .next (s.busWrite v r) := by
  cases r with
  | cmd => exact absurd rfl hr
  | status | rxdata | halfper | settle | profile | pins | reserved => rfl

theorem hostWrite_withInputs {r : Reg} {v : Word} {s t : State} (ps : List PortIn)
    (h : hostWrite r v s = .next t) :
    hostWrite r v (s.withInputs ps) = .next (t.withInputs ps) := by
  by_cases hr : r = .cmd
  · subst hr
    exact cmdWrite_withInputs ps h
  · rw [hostWrite_of_ne_cmd hr] at h ⊢
    cases h
    rw [busWrite_withInputs]

theorem hostAccess_withInputs {p : PortIn} {s t : State} (ps : List PortIn)
    (h : hostAccess p s = .next t) :
    hostAccess p (s.withInputs ps) = .next (t.withInputs ps) := by
  unfold hostAccess at h ⊢
  split at h
  · rw [if_pos ‹_›]
    exact hostWrite_withInputs ps h
  · rw [if_neg ‹_›]
    cases h
    rfl

/-- A host access leaves the schedule of input ports alone. -/
theorem access_inputs {s t : State} (h : AccessEffect s t) : t.inputs = s.inputs := by
  cases h with
  | nothing | raised | cleared | halfper | settle | profile => rfl
  | started i _ _ _ run =>
    rcases exec_cases i s with ⟨m, he⟩ | ⟨-, l, rx, he⟩ <;> cases he.symm.trans run <;> rfl

theorem sequencer_withInputs (b m : Bool) (s : State) (ps : List PortIn) :
    sequencer b m (s.withInputs ps) = (sequencer b m s).withInputs ps := by
  cases b with
  | false => rfl
  | true => exact advance_setInputs m s ps

theorem sequencer_inputs (b m : Bool) (s : State) : (sequencer b m s).inputs = s.inputs := by
  cases b with
  | false => rfl
  | true => exact (advance_sameRest m s).inputs

/-! ### Where the sequencer does not look at MISO -/

/-- `RXHI` is the one step whose action samples MISO (R124). -/
theorem action_miso {t : SeqStep} (m m' : Bool) (s : State) (h : ∀ w, t ≠ .rxhi w) :
    t.action m s = t.action m' s := by
  cases t with
  | rxhi w => exact absurd rfl (h w)
  | cslo | cshi | ckidle | txlo | txhi | txend | rxlo | rxend | hold => rfl

theorem runSteps_miso (m m' : Bool) (l : List SeqStep) (s : State)
    (h : ∀ w, SeqStep.rxhi w ∉ dueNow l) : State.runSteps m l s = State.runSteps m' l s := by
  induction l generalizing s with
  | nil => rfl
  | cons t rest ih =>
    by_cases hw : t.wait = 0
    · simp only [dueNow, if_pos hw, List.mem_cons, not_or] at h
      rw [runSteps_zero m rest s hw, runSteps_zero m' rest s hw,
        action_miso m m' s fun w => Ne.symm (h w).1, ih _ fun w => (h w).2]
    · simp only [dueNow, if_neg hw, List.mem_singleton] at h
      rw [runSteps_waiting m rest s hw, runSteps_waiting m' rest s hw,
        action_miso m m' s fun w => Ne.symm (h w)]

theorem advance_miso (m m' : Bool) {s : State}
    (h : s.dly ≠ 0 ∨ ∀ w, SeqStep.rxhi w ∉ dueNow s.steps) : s.advance m = s.advance m' := by
  by_cases hd : s.dly = 0
  · rw [advance_running m hd, advance_running m' hd]
    exact runSteps_miso m m' s.steps s (h.resolve_left (not_not_intro hd))
  · rw [advance_waiting m hd, advance_waiting m' hd]

/-- The sequencer's part of an edge after a host access, where no `RXHI` runs at that edge. -/
theorem sequencer_miso (m m' : Bool) {s t : State} (ha : AccessEffect s t)
    (h : s.busy = false ∨ s.dly ≠ 0 ∨ ∀ w, SeqStep.rxhi w ∉ dueNow s.steps) :
    sequencer s.busy m t = sequencer s.busy m' t := by
  cases hb : s.busy with
  | false => rfl
  | true =>
    have ht := access_while_busy hb ha
    refine advance_miso m m' ?_
    rw [ht]
    exact h.resolve_left (by simp [hb])

/-! ### One edge -/

theorem step_reset {s : State} (hr : s.ports.rst = true) : step s = .next s.resetEdge := by
  unfold step clockEdge
  rw [if_pos hr]

theorem step_access {s t : State} (hr : s.ports.rst = false) (h : hostAccess s.ports s = .next t) :
    step s = .next (sequencer s.busy s.ports.miso t).nextCycle := by
  unfold step clockEdge
  rw [if_neg (by simp [hr]), h]

/-- The edge of a cycle that has another MISO, where no `RXHI` runs at that edge: both edges reset, or
both make the same host access, after which the sequencer does not look at MISO. -/
theorem step_miso {s : State} {ps : List PortIn} (m : Bool)
    (hp : (s.withInputs ps).ports = { s.ports with miso := m }) (hps : ps.tail = s.inputs.tail)
    (quiet : s.busy = false ∨ s.dly ≠ 0 ∨ ∀ w, SeqStep.rxhi w ∉ dueNow s.steps) :
    step (s.withInputs ps) = step s := by
  rcases step_cases s with ⟨hr, he⟩ | ⟨hr, t, ht, ha, he⟩ <;> rw [he]
  · have hr' : (s.withInputs ps).ports.rst = true := by rw [hp, ← hr]
    rw [step_reset hr']
    simp only [State.resetEdge, State.withInputs, hps]
  · have hr' : (s.withInputs ps).ports.rst = false := by rw [hp, ← hr]
    have ht' : hostAccess (s.withInputs ps).ports (s.withInputs ps) = .next (t.withInputs ps) := by
      rw [hp]
      exact hostAccess_withInputs ps ht
    have hseq : sequencer s.busy m t = sequencer s.busy s.ports.miso t := sequencer_miso _ _ ha quiet
    have htail : ps.tail = (sequencer s.busy s.ports.miso t).inputs.tail := by
      rw [sequencer_inputs, access_inputs ha, hps]
    calc step (s.withInputs ps)
        = .next (sequencer s.busy m (t.withInputs ps)).nextCycle := by
          rw [step_access hr' ht', hp]
          rfl
      _ = .next (sequencer s.busy s.ports.miso t).nextCycle := by
          rw [sequencer_withInputs, hseq, withInputs_nextCycle htail]

/-- Settles O16, by `step_miso` for the schedule with the other MISO at its head. -/
theorem misoActsOnlyThroughSamples : Obligations.MisoActsOnlyThroughSamples := by
  unfold Obligations.MisoActsOnlyThroughSamples
  rintro s _ p m rest hin rfl quiet
  have hp : s.ports = p := by simp [State.ports, State.portsAt, hin]
  exact step_miso m (by rw [hp]; rfl) (by rw [hin]; rfl) quiet

end Sys2Proof.Machine
end

section
/-! SUPPORT. A busy machine with no step left: the edges of its last wait, and its completion (R128,
R130). -/

namespace Sys2Proof.Machine

open Sys2Proof.Safety

theorem runEdges_succ {n : Nat} {s t : State} (h : step s = .next t) :
    runEdges (n + 1) s = runEdges n t := by
  simp only [runEdges, h]

/-- Every edge has a next state (93_implementation_defined.md). -/
theorem step_next (s : State) : ∃ t, step s = .next t := by
  rcases step_cases s with ⟨-, h⟩ | ⟨-, t, -, -, h⟩ <;> exact ⟨_, h⟩

/-- A run of `n + k` edges is a run of `n` edges and then one of `k`. -/
theorem runEdges_add {n k : Nat} {s t : State} (h : runEdges n s = .next t) :
    runEdges (n + k) s = runEdges k t := by
  induction n generalizing s with
  | zero =>
    cases h
    rw [Nat.zero_add]
  | succ n ih =>
    obtain ⟨u, hu⟩ := step_next s
    rw [runEdges_succ hu] at h
    rw [Nat.succ_add, runEdges_succ hu, ih h]

/-- One more edge at the end of a run. -/
theorem runEdges_snoc {n : Nat} {s t u : State} (h : runEdges n s = .next t)
    (hu : step t = .next u) : runEdges (n + 1) s = .next u := by
  rw [runEdges_add h, runEdges_succ hu]
  rfl

theorem sameDatapath_refl (s : State) : SameDatapath s s := by simp [SameDatapath]

theorem sameDatapath_trans {s t u : State} (h : SameDatapath s t) (k : SameDatapath t u) :
    SameDatapath s u := by
  simp_all only [SameDatapath, and_self]

/-- The state `t` of a busy machine with no step left, after `k` edges of the wait it had in `s`. -/
structure WaitsOn (k : Nat) (s t : State) : Prop where
  busy : t.busy = true
  steps : t.steps = []
  dly : t.dly.toNat + k = s.dly.toNat
  datapath : SameDatapath t s
  ports : ∀ j, t.portsAt j = s.portsAt (k + j)

/-- One edge of the wait. -/
theorem step_waitsOn {s : State} (hb : s.busy = true) (hs : s.steps = []) (hd : s.dly ≠ 0)
    (hr : s.ports.rst = false) : ∃ t, step s = .next t ∧ WaitsOn 1 s t := by
  obtain ⟨e, c, h⟩ := step_busy hb hr
  rw [advance_waiting _ hd] at h
  refine ⟨_, h, hb, hs, ?_, ?_, ?_⟩
  · show (s.dly - 1).toNat + 1 = s.dly.toNat
    bv_omega
  · exact sameDatapath_refl s
  · intro j
    rw [Nat.add_comm 1 j]
    exact State.portsAt_eq_of_tail rfl rfl j

/-- The completion edge, with no step left and the wait over (R130). -/
theorem step_completes {s : State} (hb : s.busy = true) (hs : s.steps = []) (hd : s.dly = 0)
    (hr : s.ports.rst = false) :
    ∃ t, step s = .next t ∧ t.busy = false ∧ t.steps = [] ∧ t.dly = 0 ∧ SameDatapath t s := by
  obtain ⟨e, c, h⟩ := step_busy hb hr
  rw [advance_running _ hd, hs] at h
  exact ⟨_, h, rfl, rfl, rfl, sameDatapath_refl s⟩

/-- The waits of two runs, one after the other. -/
theorem WaitsOn.trans {j k : Nat} {s t u : State} (h : WaitsOn j s t) (h' : WaitsOn k t u) :
    WaitsOn (j + k) s u where
  busy := h'.busy
  steps := h'.steps
  dly := by rw [← h.dly, ← h'.dly, Nat.add_assoc, Nat.add_comm j k]
  datapath := sameDatapath_trans h'.datapath h.datapath
  ports i := by rw [h'.ports, h.ports, Nat.add_assoc]

/-- A run without reset has none in the cycle its `k`-th edge leads to. -/
theorem WaitsOn.noReset {n k : Nat} {s t : State} (h : WaitsOn k s t) (hr : NoReset n s)
    (hk : k < n) : t.ports.rst = false := by
  rw [State.ports, h.ports, Nat.add_zero, hr k hk]

/-- `k` edges of the wait. -/
theorem runEdges_waitsOn {s : State} (hb : s.busy = true) (hs : s.steps = [])
    (hr : NoReset (s.dly.toNat + 1) s) (k : Nat) (hk : k ≤ s.dly.toNat) :
    ∃ t, runEdges k s = .next t ∧ WaitsOn k s t := by
  induction k with
  | zero => exact ⟨s, rfl, hb, hs, rfl, sameDatapath_refl s, fun j => by rw [Nat.zero_add]⟩
  | succ k ih =>
    obtain ⟨t, ht, w⟩ := ih (by omega)
    have hd : t.dly ≠ 0 := by
      have := w.dly
      bv_omega
    obtain ⟨u, hu, w'⟩ := step_waitsOn w.busy w.steps hd (w.noReset hr (by omega))
    exact ⟨u, runEdges_snoc ht hu, w.trans w'⟩

/-- Settles O56: `DLY` edges of the wait, then the completion edge. -/
theorem emptyStepsLeaveOnlyTheWait : Obligations.EmptyStepsLeaveOnlyTheWait := by
  unfold Obligations.EmptyStepsLeaveOnlyTheWait
  intro s _ hs hr hb
  constructor
  · intro k hk
    obtain ⟨t, ht, w⟩ := runEdges_waitsOn hb hs hr k hk
    exact ⟨t, ht, w.busy, w.steps, w.datapath⟩
  · obtain ⟨t, ht, w⟩ := runEdges_waitsOn hb hs hr s.dly.toNat le_rfl
    have hd : t.dly = 0 := by
      have := w.dly
      bv_omega
    obtain ⟨u, hu, hbu, hsu, hdu, same⟩ :=
      step_completes w.busy w.steps hd (w.noReset hr (Nat.lt_succ_self _))
    exact ⟨u, runEdges_snoc ht hu, hbu, hsu, hdu, sameDatapath_trans same w.datapath⟩

end Sys2Proof.Machine
end

section
/-! SUPPORT. The register space seen from a host (20_memory.md): what a read returns and that it leaves
the machine alone (R63), and which byte-addressed requests reach a slot (R60, R64, R65). -/

namespace Sys2Proof.Machine

/-! ### Reads -/

/-- Without a selected write the host's part of an edge changes nothing (R63). -/
theorem hostAccess_of_no_write {p : PortIn} (h : p.busSel = false ∨ p.busWe = false) (s : State) :
    hostAccess p s = .next s := by
  have noWrite : (p.busSel && p.busWe) = false := by rwa [Bool.and_eq_false_iff]
  rw [hostAccess, noWrite]
  rfl

theorem State.busRdata_of_read {s : State} {r : Reg} (hsel : s.ports.busSel = true)
    (hwe : s.ports.busWe = false) (ha : s.ports.busAddr = r.slot) :
    s.busRdata = s.busRead s.ports.miso r := by
  rw [State.busRdata, hsel, hwe, ha, Reg.ofSlot_slot]
  rfl

theorem State.busRdata_of_no_read {s : State}
    (h : s.ports.busSel = false ∨ s.ports.busWe = true) : s.busRdata = 0 := by
  have noRead : (s.ports.busSel && !s.ports.busWe) = false := by
    rwa [Bool.and_eq_false_iff, Bool.not_eq_false']
  rw [State.busRdata, noRead]
  rfl

/-- Settles O33: `bus_rdata` case by case; an edge without a write is the sequencer's part alone, as on
an idle bus. -/
theorem readsChangeNoState : Obligations.ReadsChangeNoState := by
  unfold Obligations.ReadsChangeNoState
  intro s
  refine ⟨fun r => State.busRdata_of_read, State.busRdata_of_no_read, fun hr h => ?_⟩
  rw [step_access hr (hostAccess_of_no_write h s), step_withAccess_idle]

/-! ### The bridge -/

/-- A byte address is aligned when the two bits below the word index are 0. -/
theorem low_bits_eq_zero_iff (a : Word) : a.extractLsb' 0 2 = 0 ↔ a.toNat % 4 = 0 := by
  simp [← BitVec.toNat_inj]

/-- The slot index `a[4:2]` is the word index of the address, modulo the eight slots (R65). -/
theorem slot_bits_eq_ofNat (a : Word) : a.extractLsb' 2 3 = BitVec.ofNat 3 (a.toNat / 4) := by
  simp [← BitVec.toNat_inj, Nat.shiftRight_eq_div_pow]

theorem bridgeAccess_aligned {a : Word} (h : a.toNat % 4 = 0) :
    bridgeAccess a 4 = .next (Reg.ofSlot (BitVec.ofNat 3 (a.toNat / 4))) := by
  rw [bridgeAccess, if_pos ⟨rfl, (low_bits_eq_zero_iff a).mpr h⟩, slot_bits_eq_ofNat]

theorem bridgeAccess_other {a : Word} {n : Nat} (h : n ≠ 4 ∨ a.toNat % 4 ≠ 0) :
    bridgeAccess a n = .refused .noSuchAccess := by
  have refused : ¬ (n = 4 ∧ a.extractLsb' 0 2 = 0) := by
    rwa [low_bits_eq_zero_iff, not_and_or]
  rw [bridgeAccess, if_neg refused]

/-- The slot offsets fit the address: eight slots of four bytes (R60). -/
theorem toNat_ofNat_byteOffset (r : Reg) :
    (BitVec.ofNat 32 r.byteOffset).toNat = 4 * r.slot.toNat := by
  have := r.slot.isLt
  rw [BitVec.toNat_ofNat, Reg.byteOffset, Nat.mod_eq_of_lt (by omega)]

/-- An access at a register's own offset reaches that register (R60, R65). -/
theorem bridgeAccess_byteOffset (r : Reg) :
    bridgeAccess (BitVec.ofNat 32 r.byteOffset) 4 = .next r := by
  have ha := toNat_ofNat_byteOffset r
  have aligned : (BitVec.ofNat 32 r.byteOffset).toNat % 4 = 0 := by omega
  rw [bridgeAccess_aligned aligned, ha, Nat.mul_div_cancel_left _ (by decide), BitVec.ofNat_toNat,
    BitVec.setWidth_eq, Reg.ofSlot_slot]

/-- Settles O53: the aligned request of 4 bytes, and every other one. -/
theorem bridgeRefusesOtherAccesses : Obligations.BridgeRefusesOtherAccesses := by
  unfold Obligations.BridgeRefusesOtherAccesses
  exact ⟨bridgeAccess_byteOffset, fun _ _ => bridgeAccess_other, fun _ => bridgeAccess_aligned⟩

end Sys2Proof.Machine
end

section
/-! SUPPORT. The encoding of commands (30_encoding.md): a command word taken apart into its fields
(R90), the encoder as a table of fields (R93), and with both the decoder's inverse laws (R96, R97),
its mask and match table (R96) and its illegal words (R95). -/

namespace Sys2Proof

open Sys2Proof.Machine Sys2Proof.Safety

/-! ### The fields of a command word (R90) -/

theorem append_inj_iff {m n : Nat} {x x' : BitVec m} {y y' : BitVec n} :
    x ++ y = x' ++ y' ↔ x = x' ∧ y = y' := by
  constructor
  · intro h
    have high := congrArg (BitVec.extractLsb' n m) h
    have low := congrArg (BitVec.extractLsb' 0 n) h
    rw [BitVec.extractLsb'_append_eq_left, BitVec.extractLsb'_append_eq_left] at high
    rw [BitVec.extractLsb'_append_eq_right, BitVec.extractLsb'_append_eq_right] at low
    exact ⟨high, low⟩
  · rintro ⟨rfl, rfl⟩
    rfl

theorem append_eq_zero_iff {m n : Nat} {x : BitVec m} {y : BitVec n} :
    x ++ y = 0#(m + n) ↔ x = 0#m ∧ y = 0#n := by
  rw [← BitVec.zero_append_zero, append_inj_iff]

theorem word_eq_fields (w : Word) : w = cmdZ1 w ++ (cmdB1 w ++ cmdB0 w ++ cmdZ0 w ++ cmdOp w) := by
  simp only [cmdZ1, cmdB1, cmdB0, cmdZ0, cmdOp,
    BitVec.extractLsb'_append_extractLsb'_eq_extractLsb']
  exact BitVec.extractLsb'_eq_self.symm

theorem word_eq_append_iff {w : Word} {z1 b1 b0 : Byte} {z0 op : BitVec 4} :
    w = z1 ++ (b1 ++ b0 ++ z0 ++ op) ↔
      cmdZ1 w = z1 ∧ cmdB1 w = b1 ∧ cmdB0 w = b0 ∧ cmdZ0 w = z0 ∧ cmdOp w = op := by
  conv_lhs => rw [word_eq_fields w]
  refine append_inj_iff.trans (and_congr_right fun _ => ?_)
  rw [append_inj_iff, append_inj_iff, append_inj_iff, and_assoc, and_assoc]

theorem word_ext_iff {w v : Word} : w = v ↔ cmdZ1 w = cmdZ1 v ∧ cmdB1 w = cmdB1 v ∧
    cmdB0 w = cmdB0 v ∧ cmdZ0 w = cmdZ0 v ∧ cmdOp w = cmdOp v := by
  conv_lhs => rw [word_eq_fields v]
  exact word_eq_append_iff

/-- WAIT's field is `{B1, B0}` (R90). -/
theorem cmdN_eq_append (w : Word) : cmdN w = cmdB1 w ++ cmdB0 w :=
  (BitVec.extractLsb'_append_extractLsb'_eq_extractLsb' (start₂ := 16) (start₁ := 8) (len₁ := 8)
    rfl).symm

theorem count_bytes (n : Count) : n.extractLsb' 8 8 ++ n.extractLsb' 0 8 = n :=
  BitVec.extractLsb'_append_extractLsb' (w := 8) (len := 8)

theorem cmdN_eq_iff {w : Word} {n : Count} :
    cmdN w = n ↔ cmdB1 w = n.extractLsb' 8 8 ∧ cmdB0 w = n.extractLsb' 0 8 := by
  rw [cmdN_eq_append]
  conv_lhs => rw [← count_bytes n]
  exact append_inj_iff

/-! ### The fields of a command (R93) -/

/-- The OP of a command. -/
def Instr.op : Instr → BitVec 4
  | .csa => 1
  | .csd => 2
  | .send _ => 3
  | .recv => 4
  | .wait _ => 5
  | .dispw _ _ => 6
  | .devw _ _ => 7
  | .devr _ _ => 8

/-- What a command puts in B0. -/
def Instr.b0 : Instr → Byte
  | .csa | .csd | .recv => 0
  | .send b => b
  | .wait n => n.extractLsb' 0 8
  | .dispw a _ | .devw a _ | .devr a _ => a

/-- What a command puts in B1. -/
def Instr.b1 : Instr → Byte
  | .csa | .csd | .recv | .send _ => 0
  | .wait n => n.extractLsb' 8 8
  | .dispw _ d | .devw _ d => d
  | .devr _ cnt => cnt

/-- Two operand bytes and an OP, shifted to their places, with zeros in Z0 and Z1 (R97). -/
theorem packBytes_eq_append (op : BitVec 4) (b0 b1 : Byte) :
    packBytes (op.setWidth 32) b0 b1 = 0#8 ++ (b1 ++ b0 ++ 0#4 ++ op) := by
  refine Eq.trans ?_ (zeros_append_eq_setWidth 8 (b1 ++ b0 ++ 0#4 ++ op)).symm
  have shifts := BitVec.setWidth_append_append_append_eq_shiftLeft_setWidth_or (w'''' := 32)
    (b := b1) (b' := b0) (b'' := 0#4) (b''' := op)
  refine Eq.trans ?_ shifts.symm
  simp [packBytes]

theorem encode_eq_packBytes (i : Instr) : encode i = packBytes (i.op.setWidth 32) i.b0 i.b1 := by
  cases i with
  | wait n =>
    rw [Laws.EncodeRow.packBytes_eq]
    exact congrArg (fun m : Count => m.setWidth 32 <<< 8 ||| 0x5) (count_bytes n).symm
  | send b => simp [encode, packBytes, Instr.op, Instr.b0, Instr.b1]
  | csa | csd | recv | dispw | devw | devr => rfl

/-- The word of a command, field by field: zeros and what the command's row of R93 gives. -/
@[simp] theorem fields_encode (i : Instr) : cmdZ1 (encode i) = 0 ∧ cmdB1 (encode i) = i.b1 ∧
    cmdB0 (encode i) = i.b0 ∧ cmdZ0 (encode i) = 0 ∧ cmdOp (encode i) = i.op :=
  word_eq_append_iff.1 ((encode_eq_packBytes i).trans (packBytes_eq_append _ _ _))

theorem zOk_iff (w : Word) : zOk w = true ↔ cmdZ1 w = 0 ∧ cmdZ0 w = 0 := by
  simp [zOk, and_comm]

theorem eq_encode_iff {w : Word} {i : Instr} : w = encode i ↔
    zOk w = true ∧ cmdB1 w = i.b1 ∧ cmdB0 w = i.b0 ∧ cmdOp w = i.op := by
  simp only [word_ext_iff, zOk_iff, fields_encode]
  tauto

/-! ### Decode and encode (R94, R97) -/

@[simp] theorem zOk_encode (i : Instr) : zOk (encode i) = true := (eq_encode_iff.1 rfl).1

/-- Each OP leads back to its command, whose checks its own word passes. -/
theorem decode_encode {i : Instr} (wf : i.WellFormed) : decode (encode i) = .ok i := by
  cases i with
  | csa | csd | recv => simp [decode, checked, noOperandsOk, Instr.op, Instr.b0, Instr.b1]
  | send b => simp [decode, checked, oneByteOk, Instr.op, Instr.b0, Instr.b1]
  | wait n => simp [decode, checked, cmdN_eq_append, Instr.op, Instr.b0, Instr.b1, count_bytes]
  | dispw a d | devw a d => simp [decode, checked, Instr.op, Instr.b0, Instr.b1]
  | devr a cnt =>
    have count : legalCount cnt = true := wf
    simp [decode, decodeDevr, Instr.op, Instr.b0, Instr.b1, count]

theorem checked_eq_ok {ok : Bool} {i j : Instr} : checked ok i = .ok j ↔ ok = true ∧ i = j := by
  cases ok <;> simp [checked]

theorem decodeDevr_eq_ok {w : Word} {j : Instr} : decodeDevr w = .ok j ↔
    zOk w = true ∧ legalCount (cmdB1 w) = true ∧ Instr.devr (cmdB0 w) (cmdB1 w) = j := by
  unfold decodeDevr
  cases zOk w <;> cases legalCount (cmdB1 w) <;> simp

theorem noOperandsOk_iff {w : Word} :
    noOperandsOk w = true ↔ zOk w = true ∧ cmdB1 w = 0 ∧ cmdB0 w = 0 := by
  simp only [noOperandsOk, Bool.and_eq_true, beq_iff_eq]
  tauto

theorem oneByteOk_iff {w : Word} : oneByteOk w = true ↔ zOk w = true ∧ cmdB1 w = 0 := by
  simp [oneByteOk]

/-- What an accepted word's check leaves open is its OP and the operands of its command. -/
theorem eq_encode_of_decode {w : Word} {i : Instr} (h : decode w = .ok i) : w = encode i := by
  have eq_of_op {k : BitVec 4} : (cmdOp w).toNat = k.toNat → cmdOp w = k := BitVec.eq_of_toNat_eq
  rw [eq_encode_iff]
  unfold decode at h
  split at h
  case h_1 op | h_2 op | h_4 op =>
    obtain ⟨passed, rfl⟩ := checked_eq_ok.1 h
    obtain ⟨z, b1, b0⟩ := noOperandsOk_iff.1 passed
    exact ⟨z, b1, b0, eq_of_op op⟩
  case h_3 op =>
    obtain ⟨passed, rfl⟩ := checked_eq_ok.1 h
    obtain ⟨z, b1⟩ := oneByteOk_iff.1 passed
    exact ⟨z, b1, rfl, eq_of_op op⟩
  case h_5 op =>
    obtain ⟨z, rfl⟩ := checked_eq_ok.1 h
    obtain ⟨b1, b0⟩ := cmdN_eq_iff.1 (Eq.refl (cmdN w))
    exact ⟨z, b1, b0, eq_of_op op⟩
  case h_6 op | h_7 op =>
    obtain ⟨z, rfl⟩ := checked_eq_ok.1 h
    exact ⟨z, rfl, rfl, eq_of_op op⟩
  case h_8 op =>
    obtain ⟨z, -, rfl⟩ := decodeDevr_eq_ok.1 h
    exact ⟨z, rfl, rfl, eq_of_op op⟩
  case h_9 => cases h

theorem decode_eq_ok_iff {w : Word} {i : Instr} :
    decode w = .ok i ↔ w = encode i ∧ i.WellFormed := by
  constructor
  · exact fun h => ⟨eq_encode_of_decode h, decode_wellFormed h⟩
  · rintro ⟨rfl, wf⟩
    exact decode_encode wf

/-- Settles O3, by `decode_encode`. -/
theorem decodeInvertsEncode : Obligations.DecodeInvertsEncode := by
  unfold Obligations.DecodeInvertsEncode
  exact fun _ => decode_encode

/-- Settles O4, by `eq_encode_of_decode`. -/
theorem encodeInvertsDecode : Obligations.EncodeInvertsDecode := by
  unfold Obligations.EncodeInvertsDecode
  exact fun _ _ h => ⟨(eq_encode_of_decode h).symm, decode_wellFormed h⟩

/-! ### The mask and match table (R96) -/

theorem and_eq_iff_fields {w m v : Word} : w &&& m = v ↔
    cmdZ1 w &&& cmdZ1 m = cmdZ1 v ∧ cmdB1 w &&& cmdB1 m = cmdB1 v ∧
      cmdB0 w &&& cmdB0 m = cmdB0 v ∧ cmdZ0 w &&& cmdZ0 m = cmdZ0 v ∧
      cmdOp w &&& cmdOp m = cmdOp v := by
  rw [word_ext_iff]
  simp only [cmdZ1, cmdB1, cmdB0, cmdZ0, cmdOp, BitVec.extractLsb'_and]

/-- Every row compares OP and the two fields that all commands need zero. -/
theorem rowMask_fields (i : Instr) : cmdZ1 (rowMask i) = BitVec.allOnes 8 ∧
    cmdZ0 (rowMask i) = BitVec.allOnes 4 ∧ cmdOp (rowMask i) = BitVec.allOnes 4 := by
  cases i <;> rw [rowMask] <;> decide

theorem rowMatch_fields (i : Instr) : cmdZ1 (rowMatch i) = 0 ∧ cmdB1 (rowMatch i) = 0 ∧
    cmdB0 (rowMatch i) = 0 ∧ cmdZ0 (rowMatch i) = 0 ∧ cmdOp (rowMatch i) = i.op := by
  cases i <;> rw [rowMatch, Instr.op] <;> decide

theorem rowMatch_eq_op (i : Instr) : rowMatch i = i.op.setWidth 32 := by
  cases i <;> rfl

/-- A row's comparison, field by field: what is left open are the two operand bytes. -/
theorem row_iff {w : Word} {i : Instr} : w &&& rowMask i = rowMatch i ↔
    zOk w = true ∧ cmdB1 w &&& cmdB1 (rowMask i) = 0 ∧ cmdB0 w &&& cmdB0 (rowMask i) = 0 ∧
      cmdOp w = i.op := by
  obtain ⟨mz1, mz0, mop⟩ := rowMask_fields i
  obtain ⟨z1, b1, b0, z0, op⟩ := rowMatch_fields i
  rw [and_eq_iff_fields, mz1, mz0, mop, z1, b1, b0, z0, op, zOk_iff, BitVec.and_allOnes,
    BitVec.and_allOnes, BitVec.and_allOnes]
  tauto

/-- Whether the three masks of the table compare the operand bytes: all of them, B1 only, none. -/
theorem mask_bytes :
    (cmdB1 0xFFFFFFFF = BitVec.allOnes 8 ∧ cmdB0 0xFFFFFFFF = BitVec.allOnes 8) ∧
      (cmdB1 0xFFFF00FF = BitVec.allOnes 8 ∧ cmdB0 0xFFFF00FF = 0#8) ∧
      cmdB1 0xFF0000FF = 0#8 ∧ cmdB0 0xFF0000FF = 0#8 := by decide

/-- The operand bytes of a row: compared with zero, or the operands themselves. -/
theorem operands_iff {w : Word} (i : Instr) :
    cmdB1 w = i.b1 ∧ cmdB0 w = i.b0 ↔
      cmdB1 w &&& cmdB1 (rowMask i) = 0 ∧ cmdB0 w &&& cmdB0 (rowMask i) = 0 ∧ OperandsAre w i := by
  obtain ⟨⟨all1, all0⟩, ⟨one1, one0⟩, none1, none0⟩ := mask_bytes
  cases i with
  | csa | csd | recv =>
    rw [rowMask, all1, all0, BitVec.and_allOnes, BitVec.and_allOnes]
    exact ⟨fun ⟨h1, h0⟩ => ⟨h1, h0, trivial⟩, fun ⟨h1, h0, _⟩ => ⟨h1, h0⟩⟩
  | send b =>
    rw [rowMask, one1, one0, BitVec.and_allOnes, BitVec.and_zero]
    exact ⟨fun ⟨h1, h0⟩ => ⟨h1, rfl, h0.symm⟩, fun ⟨h1, _, h0⟩ => ⟨h1, h0.symm⟩⟩
  | wait n =>
    rw [rowMask, none1, none0, BitVec.and_zero, BitVec.and_zero]
    exact cmdN_eq_iff.symm.trans ⟨fun h => ⟨rfl, rfl, h.symm⟩, fun ⟨_, _, h⟩ => h.symm⟩
  | dispw a d | devw a d | devr a d =>
    rw [rowMask, none1, none0, BitVec.and_zero, BitVec.and_zero]
    exact ⟨fun ⟨h1, h0⟩ => ⟨rfl, rfl, h0.symm, h1.symm⟩, fun ⟨_, _, h0, h1⟩ => ⟨h1.symm, h0.symm⟩⟩

theorem decode_eq_ok_iff_row {w : Word} {i : Instr} : decode w = .ok i ↔
    w &&& rowMask i = rowMatch i ∧ i.WellFormed ∧ OperandsAre w i := by
  rw [decode_eq_ok_iff, eq_encode_iff, row_iff, ← and_assoc (a := cmdB1 w = i.b1), operands_iff]
  tauto

/-- Settles O2: the rule by `decode_eq_ok_iff_row`; rows that match one word have its OP, which is
the match value. -/
theorem decoderFollowsItsTable : Obligations.DecoderFollowsItsTable := by
  unfold Obligations.DecoderFollowsItsTable
  refine ⟨fun _ _ => decode_eq_ok_iff_row, fun w i j hi hj => ?_⟩
  obtain ⟨-, -, -, opi⟩ := row_iff.1 hi
  obtain ⟨-, -, -, opj⟩ := row_iff.1 hj
  rw [rowMatch_eq_op, rowMatch_eq_op, ← opi, ← opj]

/-! ### Illegal words (R95) -/

/-- R94: CSA, CSD and RECV need `w[31:4]` to be zero. -/
theorem noOperandsOk_iff_bits {w : Word} : noOperandsOk w = true ↔ w.extractLsb' 4 28 = 0 := by
  have h : w.extractLsb' 4 28 = cmdZ1 w ++ cmdB1 w ++ cmdB0 w ++ cmdZ0 w := by
    simp only [cmdZ1, cmdB1, cmdB0, cmdZ0, BitVec.extractLsb'_append_extractLsb'_eq_extractLsb']
  rw [h, noOperandsOk_iff, zOk_iff]
  refine Iff.trans ?_ append_eq_zero_iff.symm
  rw [append_eq_zero_iff, append_eq_zero_iff]
  tauto

/-- R94: SEND needs `w[31:16]` and `w[7:4]` to be zero. -/
theorem oneByteOk_iff_bits {w : Word} :
    oneByteOk w = true ↔ w.extractLsb' 16 16 = 0 ∧ cmdZ0 w = 0 := by
  have h : w.extractLsb' 16 16 = cmdZ1 w ++ cmdB1 w := by
    simp only [cmdZ1, cmdB1, BitVec.extractLsb'_append_extractLsb'_eq_extractLsb']
  have h' : w.extractLsb' 16 16 = 0 ↔ cmdZ1 w = 0 ∧ cmdB1 w = 0 := by
    rw [h]
    exact append_eq_zero_iff
  rw [h', oneByteOk_iff, zOk_iff]
  tauto

theorem not_legalCount_iff {cnt : Byte} :
    ¬ legalCount cnt = true ↔ cnt.toNat = 0 ∨ 4 < cnt.toNat := by
  rw [legalCount, Bool.and_eq_true, decide_eq_true_iff, decide_eq_true_iff]
  omega

theorem checked_isError_iff {ok : Bool} {i : Instr} :
    (∃ r, checked ok i = .error r) ↔ ¬ ok = true := by
  cases ok <;> simp [checked]

theorem decodeDevr_isError_iff {w : Word} : (∃ r, decodeDevr w = .error r) ↔
    ¬ (zOk w = true ∧ legalCount (cmdB1 w) = true) := by
  unfold decodeDevr
  cases zOk w <;> cases legalCount (cmdB1 w) <;> simp

/-- R95, R121: an idle machine given an illegal word records `Misuse(ILLEGAL)` and nothing else. -/
theorem step_illegal {s : State} {w : Word} {r : Illegal} (idle : s.busy = false)
    (hd : decode w = .error r) (h : WritesReg s .cmd w) :
    step s = .next (s.raise .illegal).nextCycle := by
  rw [step_write h (cmdWrite_illegal idle hd), idle]
  rfl

/-- Settles O5: the illegal words OP by OP, each OP with its own check, and their edge by
`step_illegal`. -/
theorem illegalWordsAreRefused : Obligations.IllegalWordsAreRefused := by
  unfold Obligations.IllegalWordsAreRefused
  refine ⟨fun w => ?_, fun s w r idle hd h => step_illegal idle hd h⟩
  rw [show w.extractLsb' 0 4 = cmdOp w from rfl, show w.extractLsb' 4 4 = cmdZ0 w from rfl,
    show w.extractLsb' 24 8 = cmdZ1 w from rfl, show w.extractLsb' 16 8 = cmdB1 w from rfl]
  unfold decode
  split
  case h_1 op | h_2 op | h_4 op => simp [op, checked_isError_iff, noOperandsOk_iff_bits]
  case h_3 op => simp [op, checked_isError_iff, oneByteOk_iff_bits, imp_iff_not_or]
  case h_5 op | h_6 op | h_7 op => simp [op, checked_isError_iff, zOk_iff, imp_iff_not_or]
  case h_8 op =>
    rw [decodeDevr_isError_iff, not_and_or, not_legalCount_iff]
    simp [op, zOk_iff, imp_iff_not_or]
  case h_9 =>
    have outside : (cmdOp w).toNat = 0 ∨ 9 ≤ (cmdOp w).toNat := by
      simp only [imp_false] at *
      omega
    exact iff_of_true ⟨_, rfl⟩ (or_assoc.1 (.inl outside))

end Sys2Proof
end

section
/-! SUPPORT. The assembler's arms for the commands with operands (30_encoding.md R97). -/

namespace Sys2Proof.Machine

theorem assembleOperands_send (b : Nat) : assembleOperands "send" [b] =
    if b < 256 then some (encode (.send (BitVec.ofNat 8 b))) else none := rfl

theorem assembleOperands_wait (n : Nat) : assembleOperands "wait" [n] =
    if n < 65536 then some (encode (.wait (BitVec.ofNat 16 n))) else none := rfl

theorem assembleOperands_dispw (a d : Nat) : assembleOperands "dispw" [a, d] =
    if a < 256 ∧ d < 256 then some (encode (.dispw (BitVec.ofNat 8 a) (BitVec.ofNat 8 d)))
    else none := rfl

theorem assembleOperands_devw (a d : Nat) : assembleOperands "devw" [a, d] =
    if a < 256 ∧ d < 256 then some (encode (.devw (BitVec.ofNat 8 a) (BitVec.ofNat 8 d)))
    else none := rfl

theorem assembleOperands_devr (a k : Nat) : assembleOperands "devr" [a, k] =
    if a < 256 ∧ 1 ≤ k ∧ k ≤ 4 then some (encode (.devr (BitVec.ofNat 8 a) (BitVec.ofNat 8 k)))
    else none := rfl

/-- Settles O54: the arm of each command, its range met or not. -/
theorem assemblerRefusesOutOfRange : Obligations.AssemblerRefusesOutOfRange := by
  unfold Obligations.AssemblerRefusesOutOfRange
  intro m n
  rw [assembleOperands_send, assembleOperands_wait, assembleOperands_dispw, assembleOperands_devw,
    assembleOperands_devr]
  exact ⟨fun h => if_pos h, fun h => if_neg (by omega), fun h => if_pos h,
    fun h => if_neg (by omega), fun hm hn => if_pos ⟨hm, hn⟩, fun h => if_neg (by omega),
    fun hm hn => if_pos ⟨hm, hn⟩, fun h => if_neg (by omega),
    fun hm h1 h4 => if_pos ⟨hm, h1, h4⟩, fun h => if_neg (by omega)⟩

end Sys2Proof.Machine
end

section
/-! SUPPORT. The polling loop of `sync` (30_encoding.md R98): each edge brings a running command one
edge nearer to its completion, so the loop's bound is enough. -/

namespace Sys2Proof.Machine

/-! ### What remains of a command after an edge (R127, R128) -/

theorem remaining_busy {s : State} (hb : s.busy = true) :
    s.remaining = s.dly.toNat + sumWaits s.steps + 1 := by
  rw [State.remaining, if_pos hb]

theorem hold_remaining {s : State} (hb : s.busy = true) (rest : List SeqStep) {n : Count}
    (hn : n ≠ 0) : (s.hold rest n).remaining = n.toNat + sumWaits rest := by
  rw [remaining_busy (s := s.hold rest n) hb]
  show (n - 1).toNat + sumWaits rest + 1 = n.toNat + sumWaits rest
  bv_omega

theorem runSteps_remaining (m : Bool) (l : List SeqStep) {s : State} (hb : s.busy = true) :
    (State.runSteps m l s).remaining = sumWaits l := by
  induction l generalizing s with
  | nil => rfl
  | cons t rest ih =>
    have hb' : (t.action m s).busy = true := by rw [action_busy, hb]
    by_cases hw : t.wait = 0
    · have zero : t.wait.toNat = 0 := congrArg BitVec.toNat hw
      rw [runSteps_zero m rest s hw, ih hb', sumWaits, zero, Nat.zero_add]
    · rw [runSteps_waiting m rest s hw, hold_remaining hb' rest hw, sumWaits]

theorem advance_remaining (m : Bool) {s : State} (hb : s.busy = true) :
    (s.advance m).remaining + 1 = s.remaining := by
  rw [remaining_busy hb]
  by_cases hd : s.dly = 0
  · have zero : s.dly.toNat = 0 := congrArg BitVec.toNat hd
    rw [advance_running m hd, runSteps_remaining m s.steps hb, zero, Nat.zero_add]
  · rw [advance_waiting m hd]
    exact congrArg (· + 1) (hold_remaining hb s.steps hd)

theorem sequencer_remaining (m : Bool) (s : State) :
    (sequencer s.busy m s).remaining = s.remaining - 1 := by
  cases hb : s.busy with
  | false => simp [sequencer, (State.remaining_eq_zero_iff s).2 hb]
  | true => exact Nat.eq_sub_of_add_eq (advance_remaining m hb)

/-! ### One poll -/

theorem busCycle_next {a : BusAccess} {x : Session} {t : State}
    (h : step (x.now.withAccess a) = .next t) :
    busCycle a x = .next { x with now := t, visited := x.visited ++ [t] } := by
  rw [busCycle, h]

theorem busCycle_read (r : Reg) (x : Session) : ∃ y, busCycle (.read r) x = .next y ∧
    y.now.remaining = x.now.remaining - 1 ∧ y.reads = x.reads := by
  have noReset : (x.now.withAccess (.read r)).ports.rst = false := rfl
  have edge := step_access noReset (hostAccess_of_no_write (.inr rfl) _)
  exact ⟨_, busCycle_next edge, sequencer_remaining _ (x.now.withAccess (.read r)), rfl⟩

/-- BUSY is bit 0 of STATUS (R23). -/
theorem readNow_status_busy (s : State) : (readNow .status s).getLsbD 0 = s.busy :=
  status_getLsbD _ 0

theorem pollLoop_ends {k : Nat} {x : Session} (hk : x.now.remaining ≤ k) :
    ∃ y, pollLoop k x = .next y ∧ y.now.busy = false ∧ y.reads = x.reads := by
  induction k generalizing x with
  | zero =>
    obtain ⟨y, hy, hrem, hreads⟩ := busCycle_read .status x
    exact ⟨y, hy, (State.remaining_eq_zero_iff _).1 (by omega), hreads⟩
  | succ k ih =>
    obtain ⟨y, hy, hrem, hreads⟩ := busCycle_read .status x
    rw [pollLoop, hy, readNow_status_busy]
    cases hb : x.now.busy with
    | false =>
      have idle := (State.remaining_eq_zero_iff _).2 hb
      exact ⟨y, rfl, (State.remaining_eq_zero_iff _).1 (by omega), hreads⟩
    | true =>
      obtain ⟨z, hz, hbz, hrz⟩ := ih (x := y) (by omega)
      exact ⟨z, hz, hbz, hrz.trans hreads⟩

/-- Settles O52: the loop's bound is what remains of the running command. -/
theorem syncEndsIdle : Obligations.SyncEndsIdle := by
  unfold Obligations.SyncEndsIdle
  exact fun _ => pollLoop_ends le_rfl

end Sys2Proof.Machine
end

section
/-! SUPPORT. Acceptance (40_sequencing.md R120 to R123): the meaning of every command is one attempt, with
the check and the step list of the rules' tables, and a CMD write is that attempt. -/

namespace Sys2Proof.Machine

open Sys2Proof.Safety

/-! ### The step lists (R122, R125) -/

theorem txByte_eq_txBits (b : Byte) (h : Count) (r : Byte) : txByte b h r = txBits b h r := rfl

theorem rxByte_eq_rxBits (h : Count) : rxByte h = rxBits h := rfl

theorem rxBytes_eq_flatten (k : Nat) (h : Count) :
    rxBytes k h = (List.replicate k (rxBits h)).flatten := by
  induction k with
  | zero => rfl
  | succ k ih => rw [rxBytes, ih, List.replicate_succ, List.flatten_cons, rxByte_eq_rxBits]

/-! ### The state checks (R121, R223) -/

theorem needClosed_eq (s : State) :
    s.needClosed = if s.csN = false then some .txnOpen else none := by
  cases h : s.csN <;> simp [State.needClosed, State.cs, h]

theorem needOpen_eq (s : State) : s.needOpen = if s.csN = true then some .noCs else none := by
  cases h : s.csN <;> simp [State.needOpen, State.cs, h]

theorem needReadMode_eq (s : State) : s.needReadMode =
    if s.csN = true then some .noCs else if s.rdArmed = false then some .noReadMode else none := by
  cases h : s.csN <;> cases h' : s.rdArmed <;> simp [State.needReadMode, State.cs, h, h']

/-- All the checks of a command presented while idle: its operands, then R121's state check. -/
def acceptCheck (i : Instr) (s : State) : Option Misuse :=
  if i.wellFormed then stateCheck i s else some .illegal

theorem acceptCheck_of_wellFormed {i : Instr} (wf : i.WellFormed) (s : State) :
    acceptCheck i s = stateCheck i s := if_pos wf

/-- The state a command starts in: R122's step list is loaded, and a DEVR clears RXDATA (R121). -/
def State.started (s : State) (i : Instr) : State :=
  { s.accept (expand i s) with rxdata := match i with | .devr _ _ => 0 | _ => s.rxdata }

/-! ### The meaning of a command (R121) -/

theorem exec_eq_attempt (i : Instr) (s : State) :
    exec i s = s.attempt (acceptCheck i s) (s.started i) := by
  cases i with
  | csa | dispw a d | devw a d => exact congrArg (s.attempt · _) (needClosed_eq s)
  | csd | send b => exact congrArg (s.attempt · _) (needOpen_eq s)
  | recv => exact congrArg (s.attempt · _) (needReadMode_eq s)
  | wait n => rfl
  | devr a cnt =>
    have check : s.devrCheck cnt = acceptCheck (.devr a cnt) s := by
      rw [State.devrCheck, needClosed_eq]
      rfl
    have list : devrSteps a cnt.toNat s = expand (.devr a cnt) s := by
      rw [devrSteps, rxBytes_eq_flatten]
      rfl
    rw [exec, execDevr, check, list]
    rfl

theorem exec_busy (i : Instr) {s : State} (hb : s.busy = true) :
    exec i s = .next (s.raise .busy) := by
  rw [exec_eq_attempt, attempt_busy hb]

theorem exec_rejected {i : Instr} {s : State} {m : Misuse} (wf : i.WellFormed)
    (idle : s.busy = false) (hc : stateCheck i s = some m) : exec i s = .next (s.raise m) := by
  rw [exec_eq_attempt, acceptCheck_of_wellFormed wf, hc, attempt_rejected idle]

theorem exec_starts {i : Instr} {s : State} (wf : i.WellFormed) (idle : s.busy = false)
    (hc : stateCheck i s = none) : exec i s = .next (s.started i) := by
  rw [exec_eq_attempt, acceptCheck_of_wellFormed wf, hc, attempt_idle idle]

/-- Settles O27: a command is turned away with one misuse error, or starts; neither touches the rest. -/
theorem commandFrame : Obligations.CommandFrame := by
  unfold Obligations.CommandFrame
  intro i s t h
  rw [exec_eq_attempt] at h
  rcases attempt_cases s (acceptCheck i s) (s.started i) with ⟨m, he⟩ | ⟨idle, -, he⟩ <;>
    cases he.symm.trans h
  · refine ⟨rfl, rfl, rfl, rfl, rfl, rfl, rfl, rfl, rfl, rfl, fun _ => rfl, fun _ => rfl,
      fun r hr m => ?_, .inl ⟨rfl, rfl, rfl, rfl, rfl⟩⟩
    fin_cases hr <;> rfl
  · refine ⟨rfl, rfl, rfl, rfl, rfl, rfl, rfl, rfl, rfl, rfl, fun _ => rfl, fun other => ?_,
      fun r hr m => ?_, .inr ⟨idle, rfl, rfl, rfl⟩⟩
    · cases i with
      | devr a k => exact absurd rfl (other a k)
      | csa | csd | send | recv | wait | dispw | devw => rfl
    · fin_cases hr <;> rfl

/-! ### The CMD write (R120, R121, R123) -/

/-- A busy machine raises `Misuse(BUSY)` before it looks at the word, which is what every command does. -/
theorem cmdWrite_eq_exec {w : Word} {i : Instr} (hd : decode w = .ok i) (s : State) :
    cmdWrite w s = exec i s := by
  cases hb : s.busy with
  | true => rw [cmdWrite_busy w hb, exec_busy i hb]
  | false => exact cmdWrite_idle hb hd

theorem exec_next (i : Instr) (s : State) : ∃ t, exec i s = .next t := by
  rcases exec_cases i s with ⟨m, h⟩ | ⟨-, l, rx, h⟩ <;> exact ⟨_, h⟩

/-- Settles O18: the host's part of the edge is the command's meaning, by `cmdWrite_eq_exec`. -/
theorem stepRunsTheDecodedCommand : Obligations.StepRunsTheDecodedCommand := by
  unfold Obligations.StepRunsTheDecodedCommand
  intro s w i h hd
  obtain ⟨t, ht⟩ := exec_next i s
  exact ⟨t, ht, step_write h ((cmdWrite_eq_exec hd s).trans ht)⟩

/-- A discarded CMD write (R123): the idle edge with the error recorded. -/
theorem step_discarded {s : State} {w : Word} {m : Misuse} (h : WritesReg s .cmd w)
    (hw : cmdWrite w s = .next (s.raise m)) :
    ∃ u, step (s.withAccess .idle) = .next u ∧
      step s = .next { u with err := true, errcode := if s.err = true then s.errcode else m.code } :=
  step_write_error h hw

/-- A CMD write at an idle machine: what the command's meaning answers, and the cycle is over. -/
theorem step_command_idle {s t : State} {w : Word} {i : Instr} (h : WritesReg s .cmd w)
    (hd : decode w = .ok i) (idle : s.busy = false) (ht : exec i s = .next t) :
    step s = .next t.nextCycle := by
  rw [step_write h ((cmdWrite_eq_exec hd s).trans ht), idle]
  rfl

/-- Settles O29: each cause makes the write raise its error, and `step_discarded` says the rest. -/
theorem discardedCommandChangesOnlyTheError : Obligations.DiscardedCommandChangesOnlyTheError := by
  unfold Obligations.DiscardedCommandChangesOnlyTheError
  rintro s w c h (⟨hb, rfl⟩ | ⟨idle, ⟨e, hd⟩, rfl⟩ | ⟨idle, i, hd, hc⟩)
  · exact step_discarded h (cmdWrite_busy w hb)
  · exact step_discarded h (cmdWrite_illegal idle hd)
  · have rejected := exec_rejected (decode_wellFormed hd) idle hc
    exact step_discarded h ((cmdWrite_idle idle hd).trans rejected)

/-- Settles O17: R121's outcomes in their order. -/
theorem acceptanceOfACommand : Obligations.AcceptanceOfACommand := by
  unfold Obligations.AcceptanceOfACommand
  intro s w h
  refine ⟨fun hb => step_discarded h (cmdWrite_busy w hb), fun r idle hd => step_illegal idle hd h,
    fun i m idle hd hc => ?_, fun i idle hd hc => ?_⟩
  · exact step_command_idle h hd idle (exec_rejected (decode_wellFormed hd) idle hc)
  · exact step_command_idle h hd idle (exec_starts (decode_wellFormed hd) idle hc)

end Sys2Proof.Machine
end

section
/-! SUPPORT. The sequencer's part of an edge (40_sequencing.md R124, R126, R128, R135): which pins the steps
of an edge write, and the edge at which one step runs. -/

namespace Sys2Proof.Machine

open Sys2Proof.Safety

/-! ### The pins at an edge (R135) -/

/-- A host access leaves the pins alone. -/
theorem access_pins {s t : State} (h : AccessEffect s t) :
    t.sclk = s.sclk ∧ t.mosi = s.mosi ∧ t.csN = s.csN := by
  cases h with
  | nothing | raised | cleared | halfper | settle | profile => exact ⟨rfl, rfl, rfl⟩
  | started i _ _ _ run =>
    rcases exec_cases i s with ⟨m, he⟩ | ⟨-, l, rx, he⟩ <;> cases he.symm.trans run <;>
      exact ⟨rfl, rfl, rfl⟩

theorem action_sclk {x : SeqStep} {m : Bool} {s : State} (h : (x.action m s).sclk ≠ s.sclk) :
    writesSclk x = true := by
  cases x with
  | cslo | cshi | txend | rxend | hold => exact absurd rfl h
  | ckidle | txlo | txhi | rxlo | rxhi => rfl

theorem action_mosi {x : SeqStep} {m : Bool} {s : State} (h : (x.action m s).mosi ≠ s.mosi) :
    writesMosi x = true := by
  cases x with
  | cslo | cshi | ckidle | txhi | txend | rxlo | rxhi | rxend | hold => exact absurd rfl h
  | txlo => rfl

theorem action_csN {x : SeqStep} {m : Bool} {s : State} (h : (x.action m s).csN ≠ s.csN) :
    writesCsN x = true := by
  cases x with
  | ckidle | txlo | txhi | txend | rxlo | rxhi | rxend | hold => exact absurd rfl h
  | cslo | cshi => rfl

/-- A pin that the steps of one edge changed is written by one of them. -/
theorem actions_pin {pin : State → Bool} {writes : SeqStep → Bool} {m : Bool}
    (written : ∀ {x : SeqStep} {s : State}, pin (x.action m s) ≠ pin s → writes x = true)
    {ran : List SeqStep} {s : State} (h : pin (actions m ran s) ≠ pin s) :
    ∃ x ∈ ran, writes x = true := by
  induction ran generalizing s with
  | nil => exact absurd rfl h
  | cons x rest ih =>
    by_cases hx : pin (x.action m s) = pin s
    · rw [← hx] at h
      obtain ⟨y, hy, hw⟩ := ih h
      exact ⟨y, List.mem_cons_of_mem x hy, hw⟩
    · exact ⟨x, List.mem_cons_self, written hx⟩

/-- The steps of one edge share it, leave the rest of the list, and make the datapath what it is. -/
theorem runSteps_shared (m : Bool) (l : List SeqStep) (s : State) :
    ∃ ran, l = ran ++ (State.runSteps m l s).steps ∧ ShareAnEdge ran ∧
      SameDatapath (State.runSteps m l s) (actions m ran s) := by
  rcases runSteps_cases m l s with ⟨ran, hl, hz, h⟩ | ⟨ran, x, rest, hl, hz, -, h⟩ <;> rw [h]
  · exact ⟨ran, by rw [hl, State.complete_steps, List.append_nil],
      fun y hy => hz y (List.mem_of_mem_dropLast hy), sameDatapath_refl _⟩
  · have last : x.action m (actions m ran s) = actions m (ran ++ [x]) s := by simp [actions]
    refine ⟨ran ++ [x], by simp [hl], ?_, ?_⟩
    · rwa [ShareAnEdge, List.dropLast_concat]
    · rw [← last]
      exact sameDatapath_refl _

/-- Settles O14: the idle machine, the waiting edge, and the edge at which steps run. -/
theorem pinsChangeOnlyAtStepEdges : Obligations.PinsChangeOnlyAtStepEdges := by
  unfold Obligations.PinsChangeOnlyAtStepEdges
  intro s t hr hst
  refine ⟨fun idle => ?_, fun hb hd => ?_, fun hb hd => ?_⟩
  · obtain ⟨u, hu, ha⟩ := hostAccess_cases s.ports s
    rw [step_access hr hu, idle] at hst
    cases hst
    obtain ⟨hsclk, hmosi, hcsN⟩ := access_pins ha
    exact ⟨hsclk, hmosi, hcsN⟩
  · obtain ⟨e, c, h⟩ := step_busy hb hr
    rw [advance_waiting _ hd] at h
    cases h.symm.trans hst
    exact ⟨rfl, rfl, rfl⟩
  · obtain ⟨e, c, h⟩ := step_busy hb hr
    rw [advance_running _ hd] at h
    cases h.symm.trans hst
    obtain ⟨ran, hl, share, same⟩ := runSteps_shared s.ports.miso s.steps s
    obtain ⟨hsclk, hmosi, hcsN, -⟩ := same
    exact ⟨ran, hl, share, fun ne => actions_pin action_sclk (hsclk ▸ ne),
      fun ne => actions_pin action_mosi (hmosi ▸ ne), fun ne => actions_pin action_csN (hcsN ▸ ne)⟩

/-! ### One step at its edge (R124) -/

/-- A running command's edge with the host idle. -/
theorem step_hostIdle {s : State} (hb : s.busy = true) (hr : s.ports.rst = false)
    (hsel : s.ports.busSel = false) : step s = .next (s.advance s.ports.miso).nextCycle := by
  rw [step_access hr (hostAccess_of_no_write (.inl hsel) s), hb]
  rfl

section
variable {s : State} (hb : s.busy = true) (hd : s.dly = 0) (hr : s.ports.rst = false)
  (hsel : s.ports.busSel = false)
include hb hd hr hsel

/-- The edge at which a step with a wait is the next to run. -/
theorem step_runs_waiting {x : SeqStep} {rest : List SeqStep} (hs : s.steps = x :: rest)
    (hw : x.wait ≠ 0) :
    step s = .next ((x.action s.ports.miso s).hold rest x.wait).nextCycle := by
  rw [step_hostIdle hb hr hsel, advance_running _ hd, hs, runSteps_waiting _ _ _ hw]

/-- The edge at which the last step runs and has no wait: the command completes (R126, R130). -/
theorem step_runs_last {x : SeqStep} (hs : s.steps = [x]) (hw : x.wait = 0) :
    step s = .next (x.action s.ports.miso s).complete.nextCycle := by
  rw [step_hostIdle hb hr hsel, advance_running _ hd, hs, runSteps_zero _ _ _ hw]
  rfl

end

/-- `{s[6:0], 0}` of R124. -/
theorem shiftLeft_one_eq_append (v : Byte) : v <<< 1 = v.extractLsb' 0 7 ++ 0#1 :=
  BitVec.shiftLeft_eq_concat_of_lt (by decide)

/-- Settles O38: each step by `step_runs_waiting` or `step_runs_last`. -/
theorem stepActionsAndWaits : Obligations.StepActionsAndWaits := by
  unfold Obligations.StepActionsAndWaits
  rintro s u rest b rd h i hb hd hr hsel hh rfl
  have runs := @step_runs_waiting s hb hd hr hsel
  have last := @step_runs_last s hb hd hr hsel
  refine ⟨fun hs => runs hs (by decide), fun hs => runs hs (by decide),
    fun hs => runs hs (by decide), fun hs => ?_, fun hs => runs hs hh, fun hs => runs hs hh,
    fun hs => runs hs hh, fun hs => runs hs hh, fun hs hrest => ?_, fun hs hrest => ?_⟩
  · rw [runs hs hh, ← shiftLeft_one_eq_append, ← shiftLeft_one_eq_append]
    by_cases hi : i = 0
    · subst hi
      rfl
    · simp [SeqStep.action, State.txLow, State.hold, State.nextCycle, SeqStep.wait, hi]
  · rw [hrest]
    exact last hs rfl
  · rw [hrest]
    exact last hs rfl

end Sys2Proof.Machine
end

section
/-! SUPPORT. A running command edge by edge (40_sequencing.md R127 to R131, R137): up to its completion it
is what the sequencer alone makes of it, from the MISO of each edge, whatever the host does. -/

namespace Sys2Proof.Machine

open Sys2Proof.Safety

/-! ### The sequencer sees only the command -/

theorem sameDatapath_symm {s t : State} (h : SameDatapath s t) : SameDatapath t s := by
  simp_all only [SameDatapath, and_self]

theorem sameCommand_symm {s t : State} (h : SameCommand s t) : SameCommand t s := by
  obtain ⟨data, hb, hs, hd⟩ := h
  exact ⟨sameDatapath_symm data, hb.symm, hs.symm, hd.symm⟩

theorem sameCommand_refl (s : State) : SameCommand s s := ⟨sameDatapath_refl s, rfl, rfl, rfl⟩

theorem sameCommand_trans {s t u : State} (h : SameCommand s t) (k : SameCommand t u) :
    SameCommand s u := by
  obtain ⟨data, hb, hs, hd⟩ := h
  obtain ⟨data', hb', hs', hd'⟩ := k
  exact ⟨sameDatapath_trans data data', hb.trans hb', hs.trans hs', hd.trans hd'⟩

theorem remaining_of_sameCommand {s t : State} (h : SameCommand s t) :
    s.remaining = t.remaining := by
  obtain ⟨-, hb, hs, hd⟩ := h
  rw [State.remaining, State.remaining, hb, hs, hd]

theorem action_sameDatapath (m : Bool) (x : SeqStep) {s t : State} (h : SameDatapath s t) :
    SameDatapath (x.action m s) (x.action m t) := by
  obtain ⟨hsclk, hmosi, hcsN, harm, hfirst, hrx, hsr, hhp, hst, hwrop, hrdop⟩ := h
  cases x <;> simp [SeqStep.action, SameDatapath, *]

theorem runSteps_sameCommand (m : Bool) (l : List SeqStep) {s t : State} (data : SameDatapath s t)
    (hb : s.busy = t.busy) : SameCommand (State.runSteps m l s) (State.runSteps m l t) := by
  induction l generalizing s t with
  | nil => exact ⟨data, rfl, rfl, rfl⟩
  | cons x rest ih =>
    have data' := action_sameDatapath m x data
    have hb' : (x.action m s).busy = (x.action m t).busy := by simp only [action_busy, hb]
    by_cases hw : x.wait = 0
    · rw [runSteps_zero m rest s hw, runSteps_zero m rest t hw]
      exact ih data' hb'
    · rw [runSteps_waiting m rest s hw, runSteps_waiting m rest t hw]
      exact ⟨data', hb', rfl, rfl⟩

theorem advance_sameCommand (m : Bool) {s t : State} (h : SameCommand s t) :
    SameCommand (s.advance m) (t.advance m) := by
  obtain ⟨data, hb, hs, hd⟩ := h
  by_cases hd0 : s.dly = 0
  · rw [advance_running m hd0, advance_running m (hd ▸ hd0), hs]
    exact runSteps_sameCommand m t.steps data hb
  · rw [advance_waiting m hd0, advance_waiting m (hd ▸ hd0)]
    exact ⟨data, hb, hs, congrArg (· - 1) hd⟩

/-! ### A run of the sequencer alone -/

/-- The sequencer's advance at each of `n` edges, where edge `k` samples `miso k`. -/
def advances (miso : Nat → Bool) : Nat → State → State
  | 0, s => s
  | n + 1, s => (advances miso n s).advance (miso n)

theorem advances_sameCommand {miso miso' : Nat → Bool} {n : Nat} {s s' : State}
    (h : SameCommand s s') (hm : ∀ k, k < n → miso k = miso' k) :
    SameCommand (advances miso n s) (advances miso' n s') := by
  induction n with
  | zero => exact h
  | succ n ih =>
    rw [advances, advances, hm n (Nat.lt_succ_self n)]
    exact advance_sameCommand _ (ih fun k hk => hm k (Nat.lt_succ_of_lt hk))

/-- A command with edges left is running. -/
theorem busy_of_remaining_pos {s : State} (h : 0 < s.remaining) : s.busy = true := by
  by_contra hb
  have := (State.remaining_eq_zero_iff s).2 (Bool.eq_false_of_not_eq_true hb)
  omega

theorem advances_remaining {miso : Nat → Bool} {n : Nat} {s : State} (hn : n ≤ s.remaining) :
    (advances miso n s).remaining + n = s.remaining := by
  induction n with
  | zero => rfl
  | succ n ih =>
    have before := ih (by omega)
    have edge := advance_remaining (miso n) (busy_of_remaining_pos (s := advances miso n s) (by omega))
    rw [advances]
    omega

/-- An idle machine has no step to run and no edge to wait: the clause of the invariant that a running
command's completion brings about (R130). -/
def IdleIsEmpty (s : State) : Prop := s.busy = false → s.steps = [] ∧ s.dly = 0

theorem idleIsEmpty_of_busy {s : State} (hb : s.busy = true) : IdleIsEmpty s := by
  intro idle
  rw [hb] at idle
  cases idle

theorem runSteps_idleIsEmpty (m : Bool) (l : List SeqStep) {s : State} (hb : s.busy = true) :
    IdleIsEmpty (State.runSteps m l s) := by
  induction l generalizing s with
  | nil => exact fun _ => ⟨rfl, rfl⟩
  | cons x rest ih =>
    have hb' : (x.action m s).busy = true := by rw [action_busy, hb]
    by_cases hw : x.wait = 0
    · rw [runSteps_zero m rest s hw]
      exact ih hb'
    · rw [runSteps_waiting m rest s hw]
      exact idleIsEmpty_of_busy hb'

theorem advance_idleIsEmpty (m : Bool) {s : State} (hb : s.busy = true) :
    IdleIsEmpty (s.advance m) := by
  by_cases hd : s.dly = 0
  · rw [advance_running m hd]
    exact runSteps_idleIsEmpty m s.steps hb
  · rw [advance_waiting m hd]
    exact idleIsEmpty_of_busy hb

theorem advances_idleIsEmpty {miso : Nat → Bool} {n : Nat} {s : State} (hb : s.busy = true)
    (hn : n ≤ s.remaining) : IdleIsEmpty (advances miso n s) := by
  cases n with
  | zero => exact idleIsEmpty_of_busy hb
  | succ n =>
    have before := advances_remaining (miso := miso) (n := n) (s := s) (by omega)
    exact advance_idleIsEmpty _ (busy_of_remaining_pos (by omega))

/-! ### A run of the machine -/

/-- One edge of a running command: the sequencer's advance, whatever the host does. -/
theorem step_advances {s : State} (hb : s.busy = true) (hr : s.ports.rst = false) :
    ∃ t, step s = .next t ∧ SameCommand t (s.advance s.ports.miso) ∧
      ∀ k, t.portsAt k = s.portsAt (k + 1) := by
  obtain ⟨e, c, h⟩ := step_busy hb hr
  have rest := advance_sameRest s.ports.miso s
  refine ⟨_, h, sameCommand_refl _, fun k => ?_⟩
  exact State.portsAt_eq_of_tail (congrArg List.tail rest.inputs) (congrArg (· + 1) rest.edge) k

/-- R137: up to its completion edge a running command is what the sequencer alone makes of it. -/
theorem runEdges_advances {n : Nat} {s : State} (hn : n ≤ s.remaining) (hr : NoReset n s) :
    ∃ t, runEdges n s = .next t ∧ SameCommand t (advances (misoOf s) n s) ∧
      t.remaining + n = s.remaining ∧ ∀ k, t.portsAt k = s.portsAt (n + k) := by
  induction n with
  | zero => exact ⟨s, rfl, sameCommand_refl s, rfl, fun k => by rw [Nat.zero_add]⟩
  | succ n ih =>
    obtain ⟨t, ht, same, left, ports⟩ := ih (by omega) fun k hk => hr k (Nat.lt_succ_of_lt hk)
    have hb : t.busy = true := busy_of_remaining_pos (by omega)
    have now : t.ports = s.portsAt n := ports 0
    obtain ⟨u, hu, edge, ports'⟩ := step_advances hb (by rw [now]; exact hr n (Nat.lt_succ_self n))
    rw [now] at edge
    have same' : SameCommand u (advances (misoOf s) (n + 1) s) :=
      sameCommand_trans edge (advance_sameCommand _ same)
    refine ⟨u, runEdges_snoc ht hu, same', ?_, fun k => ?_⟩
    · rw [remaining_of_sameCommand same', advances_remaining hn]
    · rw [ports', ports, Nat.add_assoc, Nat.add_comm 1 k]

/-- A running command is still running before its completion edge. -/
theorem runEdges_busy {n : Nat} {s : State} (hn : n < s.remaining) (hr : NoReset n s) :
    ∃ t, runEdges n s = .next t ∧ t.busy = true := by
  obtain ⟨t, ht, -, left, -⟩ := runEdges_advances (Nat.le_of_lt hn) hr
  exact ⟨t, ht, busy_of_remaining_pos (by omega)⟩

/-- A running command completes at its completion edge, with no step and no wait left (R130). -/
theorem runEdges_completes {s : State} (hb : s.busy = true) (hr : NoReset s.remaining s) :
    ∃ t, runEdges s.remaining s = .next t ∧ t.busy = false ∧ t.steps = [] ∧ t.dly = 0 := by
  obtain ⟨t, ht, ⟨-, hbt, hst, hdt⟩, left, -⟩ := runEdges_advances le_rfl hr
  have idle : t.busy = false := (State.remaining_eq_zero_iff t).1 (by omega)
  obtain ⟨empty, zero⟩ := advances_idleIsEmpty hb le_rfl (hbt.symm.trans idle)
  exact ⟨t, ht, idle, hst.trans empty, hdt.trans zero⟩

/-- Settles O15: both runs are the sequencer's, from the same command and the same MISO. -/
theorem hostCannotDisturbARunningCommand : Obligations.HostCannotDisturbARunningCommand := by
  unfold Obligations.HostCannotDisturbARunningCommand
  intro s s' n same hb hn hr hr' hm
  obtain ⟨t, ht, ct, -⟩ := runEdges_advances hn hr
  obtain ⟨t', ht', ct', -⟩ := runEdges_advances (remaining_of_sameCommand same ▸ hn) hr'
  have both := sameCommand_trans (advances_sameCommand same hm) (sameCommand_symm ct')
  refine ⟨t, t', ht, ht', sameCommand_trans ct both, fun last => ?_⟩
  subst last
  obtain ⟨u, hu, idle, empty, -⟩ := runEdges_completes hb hr
  cases hu.symm.trans ht
  exact ⟨idle, empty⟩

/-! ### A hold (R129) -/

/-- From the edge a waiting step runs, only the delay counter moves until the wait is over. -/
theorem advances_hold {miso : Nat → Bool} {s : State} {x : SeqStep} {rest : List SeqStep}
    (hd : s.dly = 0) (hs : s.steps = x :: rest) (k : Nat) (hk : k < x.wait.toNat) :
    advances miso (k + 1) s = { (x.action (miso 0) s).hold rest x.wait with
      dly := BitVec.ofNat 16 (x.wait.toNat - (k + 1)) } := by
  induction k with
  | zero =>
    have hw : x.wait ≠ 0 := by bv_omega
    have dly : x.wait - 1 = BitVec.ofNat 16 (x.wait.toNat - 1) := by bv_omega
    rw [advances, advances, advance_running _ hd, hs, runSteps_waiting _ _ _ hw, ← dly]
    rfl
  | succ k ih =>
    have hd' : BitVec.ofNat 16 (x.wait.toNat - (k + 1)) ≠ 0 := by bv_omega
    have dly : BitVec.ofNat 16 (x.wait.toNat - (k + 1)) - 1 =
        BitVec.ofNat 16 (x.wait.toNat - (k + 1 + 1)) := by bv_omega
    rw [advances, ih (by omega), advance_waiting _ hd', ← dly]

/-- Settles O39: each edge of the hold by `advances_hold`. -/
theorem holdKeepsEveryPin : Obligations.HoldKeepsEveryPin := by
  unfold Obligations.HoldKeepsEveryPin
  intro s x rest hb hd hs hw hr
  have hpos : 0 < x.wait.toNat := by bv_omega
  have hrem : x.wait.toNat ≤ s.remaining := by
    rw [remaining_busy hb, hs, sumWaits]
    omega
  have held : ∀ k, k < x.wait.toNat → ∃ u, runEdges (k + 1) s = .next u ∧
      SameCommand u { (x.action (misoOf s 0) s).hold rest x.wait with
        dly := BitVec.ofNat 16 (x.wait.toNat - (k + 1)) } := by
    intro k hk
    obtain ⟨u, hu, same, -⟩ := runEdges_advances (n := k + 1) (s := s) (by omega)
      fun j hj => hr j (by omega)
    exact ⟨u, hu, advances_hold hd hs k hk ▸ same⟩
  obtain ⟨t, ht⟩ := step_next s
  refine ⟨t, ht, fun k h1 hk => ?_⟩
  obtain ⟨t', ht', ⟨data, -⟩⟩ := held 0 hpos
  rw [runEdges_succ ht] at ht'
  cases ht'
  obtain ⟨u, hu, data', hbu, hsu, hdu⟩ := held (k - 1) (by omega)
  rw [Nat.sub_add_cancel h1] at hu hdu
  obtain ⟨hsclk, hmosi, hcsN, -⟩ := data
  obtain ⟨hsclk', hmosi', hcsN', -⟩ := data'
  refine ⟨u, hu, ?_, hsclk'.trans hsclk.symm, hmosi'.trans hmosi.symm, hcsN'.trans hcsN.symm, hsu, ?_⟩
  · rw [hbu]
    exact (action_busy _ s x).trans hb
  · rw [hdu]
    show (BitVec.ofNat 16 (x.wait.toNat - k)).toNat = x.wait.toNat - k
    have := x.wait.isLt
    rw [BitVec.toNat_ofNat]
    omega

/-! ### The schedule (R127) -/

theorem ranBy_sameDatapath {miso : Nat → Bool} {n : Nat} (l : List SeqStep) {e : Nat} {s t : State}
    (h : SameDatapath s t) : SameDatapath (ranBy miso n e l s) (ranBy miso n e l t) := by
  induction l generalizing e s t with
  | nil => exact h
  | cons x rest ih =>
    rw [ranBy, ranBy]
    split
    · exact ih (action_sameDatapath (miso e) x h)
    · exact h

/-- No step is due by edge `n` where the first is due after it. -/
theorem ranBy_none_due {miso : Nat → Bool} {n e : Nat} (h : n < e) (l : List SeqStep) (s : State) :
    ranBy miso n e l s = s := by
  cases l with
  | nil => rfl
  | cons x rest => rw [ranBy, if_neg (by omega)]

/-- The steps of edge `e`, and then those due after it. -/
theorem ranBy_runSteps {miso : Nat → Bool} {n e : Nat} (he : e ≤ n) (l : List SeqStep) (s : State) :
    SameDatapath (ranBy miso n (e + (State.runSteps (miso e) l s).dly.toNat + 1)
      (State.runSteps (miso e) l s).steps (State.runSteps (miso e) l s)) (ranBy miso n e l s) := by
  induction l generalizing s with
  | nil => exact sameDatapath_refl s
  | cons x rest ih =>
    rw [ranBy, if_pos he]
    by_cases hw : x.wait = 0
    · rw [runSteps_zero _ _ _ hw, hw]
      exact ih _
    · have next : e + (x.wait - 1).toNat + 1 = e + x.wait.toNat := by bv_omega
      rw [runSteps_waiting _ _ _ hw, State.hold_dly, State.hold_steps, next]
      exact ranBy_sameDatapath rest (sameDatapath_refl _)

/-- The advance at edge `e` leaves the schedule what it was. -/
theorem ranBy_advance {miso : Nat → Bool} {n e : Nat} (he : e ≤ n) (s : State) :
    SameDatapath (ranBy miso n (e + 1 + (s.advance (miso e)).dly.toNat) (s.advance (miso e)).steps
      (s.advance (miso e))) (ranBy miso n (e + s.dly.toNat) s.steps s) := by
  rw [Nat.add_right_comm]
  by_cases hd : s.dly = 0
  · have zero : s.dly.toNat = 0 := congrArg BitVec.toNat hd
    rw [advance_running _ hd, zero]
    exact ranBy_runSteps he s.steps s
  · have next : e + (s.dly - 1).toNat + 1 = e + s.dly.toNat := by bv_omega
    rw [advance_waiting _ hd, ← next]
    exact ranBy_sameDatapath s.steps (sameDatapath_refl s)

theorem ranBy_advances {miso : Nat → Bool} {n : Nat} (s : State) {k : Nat} (hk : k ≤ n + 1) :
    SameDatapath (ranBy miso n (k + (advances miso k s).dly.toNat) (advances miso k s).steps
      (advances miso k s)) (ranBy miso n s.dly.toNat s.steps s) := by
  induction k with
  | zero =>
    rw [Nat.zero_add]
    exact sameDatapath_refl _
  | succ k ih => exact sameDatapath_trans (ranBy_advance (by omega) _) (ih (by omega))

/-- Settles O40: after `n + 1` edges no step due by edge `n` is left, so the sequencer alone has made of
the datapath what the schedule says. -/
theorem stepsRunOnSchedule : Obligations.StepsRunOnSchedule := by
  unfold Obligations.StepsRunOnSchedule
  intro s n hb hn hr
  rw [← remaining_busy hb] at hn ⊢
  obtain ⟨u, hu, ⟨data, -⟩, left, -⟩ := runEdges_advances hn hr
  have schedule := ranBy_advances (miso := misoOf s) (n := n) s le_rfl
  rw [ranBy_none_due (by omega)] at schedule
  refine ⟨u, hu, sameDatapath_trans data schedule, ?_⟩
  by_cases more : n + 1 < s.remaining
  · rw [decide_eq_true more]
    exact busy_of_remaining_pos (by omega)
  · rw [decide_eq_false more]
    exact (State.remaining_eq_zero_iff u).1 (by omega)

/-! ### The durations (R131) -/

@[simp] theorem sumWaits_append (l l' : List SeqStep) :
    sumWaits (l ++ l') = sumWaits l + sumWaits l' := by
  induction l with
  | nil => exact (Nat.zero_add _).symm
  | cons x rest ih => rw [List.cons_append, sumWaits, sumWaits, ih, Nat.add_assoc]

@[simp] theorem sumWaits_txBits (b : Byte) (h : Count) (r : Byte) :
    sumWaits (txBits b h r) = 16 * h.toNat := by
  simp only [← txByte_eq_txBits, txByte, sumWaits, SeqStep.wait,
    show (0 : Count).toNat = 0 from rfl]
  omega

@[simp] theorem sumWaits_rxBits (h : Count) : sumWaits (rxBits h) = 16 * h.toNat := by
  simp only [← rxByte_eq_rxBits, rxByte, sumWaits, SeqStep.wait,
    show (0 : Count).toNat = 0 from rfl]
  omega

@[simp] theorem sumWaits_replicate_flatten (k : Nat) (l : List SeqStep) :
    sumWaits (List.replicate k l).flatten = k * sumWaits l := by
  induction k with
  | zero => simp [sumWaits]
  | succ k ih =>
    rw [List.replicate_succ, List.flatten_cons, sumWaits_append, ih]
    ring

@[simp] theorem sumWaits_hold (n : Count) :
    sumWaits (if n = 0 then [] else [.hold n]) = n.toNat := by
  split
  case isTrue h => exact congrArg BitVec.toNat h.symm
  case isFalse => rfl

/-- The column D of R131 is the sum of the waits of R122's step list. -/
theorem sumWaits_expand (i : Instr) (s : State) : sumWaits (expand i s) = duration i s := by
  have opens : sumWaits [.cslo] = 1 := rfl
  have closes : sumWaits [.cshi, .ckidle] = 2 := rfl
  cases i with
  | csa | csd => rfl
  | send b => exact sumWaits_txBits b s.hp s.rdop
  | recv => exact sumWaits_rxBits s.hp
  | wait n => exact sumWaits_hold n
  | dispw a d | devw a d =>
    simp only [expand, duration, sumWaits_append, sumWaits_txBits, sumWaits_hold, opens, closes]
    omega
  | devr a cnt =>
    simp only [expand, duration, sumWaits_append, sumWaits_txBits, sumWaits_replicate_flatten,
      sumWaits_rxBits, opens, closes]
    ring

/-- From the state a command starts in, its duration remains, and the completion edge. -/
theorem started_remaining (s : State) (i : Instr) :
    (s.started i).nextCycle.remaining = duration i s + 1 := by
  rw [remaining_busy rfl, ← sumWaits_expand]
  exact congrArg (· + 1) (Nat.zero_add _)

/-- Settles O41: the acceptance edge loads the list, and its waits are what remains. -/
theorem commandDurations : Obligations.CommandDurations := by
  unfold Obligations.CommandDurations
  intro s i wf idle hc hp hr
  have accepted := step_command_idle hp (decode_encode wf) idle (exec_starts wf idle hc)
  have left := started_remaining s i
  have noReset : ∀ n, n ≤ duration i s + 1 → NoReset n (s.started i).nextCycle := by
    intro n hn k hk
    rw [State.nextCycle_portsAt]
    exact hr (k + 1) (by omega)
  constructor
  · intro k h1 hk
    rw [← Nat.sub_add_cancel h1, runEdges_succ accepted]
    exact runEdges_busy (by omega) (noReset _ (by omega))
  · rw [runEdges_succ accepted, ← left]
    exact runEdges_completes rfl (noReset _ (by omega))

end Sys2Proof.Machine
end

section
/-! SUPPORT. The chip-select commands (41_select.md): how CSA and CSD start and run to completion, and what
an edge does to chip select and clock (R151 to R153). -/

namespace Sys2Proof.Machine

open Sys2Proof.Safety

/-! ### Chip select and clock at an edge -/

/-- Where a pin changes without reset, steps ran at the edge, and they made the next state (R135). -/
theorem runSteps_of_pins_changed {s t : State} (hr : s.ports.rst = false) (hst : step s = .next t)
    (changed : ¬(t.sclk = s.sclk ∧ t.mosi = s.mosi ∧ t.csN = s.csN)) :
    s.busy = true ∧ s.dly = 0 ∧ ∃ e c, t =
      { (State.runSteps s.ports.miso s.steps s).nextCycle with err := e, errcode := c } := by
  obtain ⟨idle, waiting, -⟩ := pinsChangeOnlyAtStepEdges s t hr hst
  have hb : s.busy = true := by
    by_contra hb
    exact changed (idle (Bool.eq_false_of_not_eq_true hb))
  have hd : s.dly = 0 := by
    by_contra hd
    exact changed (waiting hb hd)
  obtain ⟨e, c, h⟩ := step_busy hb hr
  rw [advance_running _ hd] at h
  cases h.symm.trans hst
  exact ⟨hb, hd, e, c, rfl⟩

/-- R124: the steps that write CS_N wait, so none shares its edge with a step after it. -/
theorem wait_ne_zero_of_writesCsN {x : SeqStep} (h : writesCsN x = true) : x.wait ≠ 0 := by
  cases x with
  | cslo | cshi => decide
  | ckidle | txlo | txhi | txend | rxlo | rxhi | rxend | hold => cases h

/-- The zero-wait steps of an edge leave CS_N alone. -/
theorem actions_csN {m : Bool} {ran : List SeqStep} (hz : ∀ x ∈ ran, x.wait = 0) (s : State) :
    (actions m ran s).csN = s.csN := by
  by_contra h
  obtain ⟨x, hx, hw⟩ := actions_pin action_csN h
  exact wait_ne_zero_of_writesCsN hw (hz x hx)

/-- What the steps that write CS_N write. -/
theorem action_writesCsN {x : SeqStep} (m : Bool) (s : State) (h : writesCsN x = true) :
    x = .cslo ∧ (x.action m s).csN = false ∨ x = .cshi ∧ (x.action m s).csN = true := by
  cases x with
  | cslo => exact .inl ⟨rfl, rfl⟩
  | cshi => exact .inr ⟨rfl, rfl⟩
  | ckidle | txlo | txhi | txend | rxlo | rxhi | rxend | hold => cases h

/-- R153: where the steps of an edge change CS_N, the last of them is CSLO or CSHI, for the zero-wait
steps before it do not write CS_N. -/
theorem runSteps_changes_csN {m : Bool} {l : List SeqStep} {s : State}
    (changed : (State.runSteps m l s).csN ≠ s.csN) :
    ∃ ran x, l = ran ++ x :: (State.runSteps m l s).steps ∧ (∀ y ∈ ran, y.wait = 0) ∧
      (x = .cslo ∧ (State.runSteps m l s).csN = false ∨
        x = .cshi ∧ (State.runSteps m l s).csN = true) := by
  rcases runSteps_cases m l s with ⟨ran, -, hz, h⟩ | ⟨ran, x, rest, hl, hz, -, h⟩
  · rw [h] at changed
    exact absurd (actions_csN hz s) changed
  · rw [h] at changed ⊢
    rw [← actions_csN hz s] at changed
    exact ⟨ran, x, hl, hz, action_writesCsN _ _ (action_csN changed)⟩

/-- Settles O13: CS_N changes only where steps run, and there `runSteps_changes_csN` names the step. -/
theorem chipSelectChangesOnlyByItsSteps : Obligations.ChipSelectChangesOnlyByItsSteps := by
  unfold Obligations.ChipSelectChangesOnlyByItsSteps
  intro s t hr hst changed
  obtain ⟨hb, hd, e, c, rfl⟩ := runSteps_of_pins_changed hr hst fun ⟨_, _, hc⟩ => changed hc
  exact ⟨hb, hd, runSteps_changes_csN changed⟩

/-- A zero-wait step the invariant allows is TXEND or RXEND (R124), which leave SCLK alone. -/
theorem writesSclk_of_wait_zero {x : SeqStep} (legal : legalWait x = true) (hw : x.wait = 0) :
    writesSclk x = false := by
  cases x with
  | cslo | cshi | txend | rxend | hold => rfl
  | ckidle => cases hw
  | txlo | txhi | rxlo | rxhi =>
    cases hw
    cases legal

/-- The zero-wait steps of an edge leave SCLK alone. -/
theorem actions_sclk {m : Bool} {ran : List SeqStep} (legal : ∀ x ∈ ran, legalWait x = true)
    (hz : ∀ x ∈ ran, x.wait = 0) (s : State) : (actions m ran s).sclk = s.sclk := by
  by_contra h
  obtain ⟨x, hx, hw⟩ := actions_pin action_sclk h
  rw [writesSclk_of_wait_zero (legal x hx) (hz x hx)] at hw
  cases hw

/-- The discipline of a list is that of what is left after its first steps have run. -/
theorem disciplined_actions {m : Bool} {ran rest : List SeqStep} {s : State}
    (h : disciplined s.csN s.sclk (ran ++ rest) = true) :
    disciplined (actions m ran s).csN (actions m ran s).sclk rest = true := by
  induction ran generalizing s with
  | nil => exact h
  | cons x ran ih => exact ih (disciplined_action h)

/-- R152: a disciplined step that raises SCLK is TXHI or RXHI, with the token held and kept. -/
theorem selected_of_action_raises {m : Bool} {x : SeqStep} {rest : List SeqStep} {s : State}
    (h : disciplined s.csN s.sclk (x :: rest) = true) (low : s.sclk = false)
    (high : (x.action m s).sclk = true) : s.csN = false ∧ (x.action m s).csN = false := by
  cases x with
  | txhi | rxhi =>
    have held : s.csN = false := by simpa using (Bool.and_eq_true_iff.1 h).1
    exact ⟨held, held⟩
  | cslo | cshi | txend | rxend | hold => cases low.symm.trans high
  | ckidle | txlo | rxlo => cases high

/-- R152: the steps of an edge raise SCLK only with the token held before and after, for the zero-wait
steps move neither pin. -/
theorem selected_of_runSteps_raises {m : Bool} {l : List SeqStep} {s : State}
    (legal : ∀ x ∈ l, legalWait x = true) (discipline : disciplined s.csN s.sclk l = true)
    (low : s.sclk = false) (high : (State.runSteps m l s).sclk = true) :
    s.csN = false ∧ (State.runSteps m l s).csN = false := by
  rcases runSteps_cases m l s with ⟨ran, rfl, hz, h⟩ | ⟨ran, x, rest, rfl, hz, -, h⟩ <;>
    rw [h] at high
  · cases low.symm.trans ((actions_sclk legal hz s).symm.trans high)
  · have kept := actions_sclk (m := m) (List.forall_mem_append.1 legal).1 hz s
    rw [h, ← actions_csN (m := m) hz s]
    exact selected_of_action_raises (disciplined_actions discipline) (kept.trans low) high

/-- Settles O11: SCLK rises only where steps run, and those of a state of the invariant are disciplined. -/
theorem clockRisesOnlyWhileSelected : Obligations.ClockRisesOnlyWhileSelected := by
  unfold Obligations.ClockRisesOnlyWhileSelected
  intro s t inv hst low high
  have hr : s.ports.rst = false := by
    by_contra hr
    cases (step_reset (Bool.eq_true_of_not_eq_false hr)).symm.trans hst
    cases high
  have rises : t.sclk ≠ s.sclk := by
    rw [low, high]
    decide
  obtain ⟨-, -, e, c, rfl⟩ := runSteps_of_pins_changed hr hst fun ⟨hs, _, _⟩ => rises hs
  exact selected_of_runSteps_raises inv.waits_legal inv.pins_disciplined low high

/-- Settles O12: the step keeps the invariant, whose discipline leaves an idle, closed machine's SCLK
low. -/
theorem clockIdlesLow : Obligations.ClockIdlesLow := by
  unfold Obligations.ClockIdlesLow
  intro s t inv hst idle closed
  exact (everyStepKeepsInvariant s t inv hst).idle_clock_low idle closed

/-! ### The start of CSA and CSD (R150, R151) -/

theorem stateCheck_csa {s : State} (hc : s.csN = true) : stateCheck .csa s = none := by
  simp [stateCheck, hc]

theorem stateCheck_csd {s : State} (hc : s.csN = false) : stateCheck .csd s = none := by
  simp [stateCheck, hc]

/-- Settles O19: CSA passes its state check. -/
theorem csaStarts : Obligations.CsaStarts := by
  unfold Obligations.CsaStarts
  exact fun s idle hc => exec_starts rfl idle (stateCheck_csa hc)

/-- Settles O20: CSD passes its state check. -/
theorem csdStarts : Obligations.CsdStarts := by
  unfold Obligations.CsdStarts
  exact fun s idle hc => exec_starts rfl idle (stateCheck_csd hc)

/-! ### A command edge by edge (R127, R130) -/

/-- The acceptance edge. -/
theorem runEdges_accepted {s : State} {i : Instr} (wf : i.WellFormed) (idle : s.busy = false)
    (hc : stateCheck i s = none) (hp : Presents s i) :
    runEdges 1 s = .next (s.started i).nextCycle :=
  runEdges_succ (step_command_idle hp (decode_encode wf) idle (exec_starts wf idle hc))

/-- Accepted at edge `c`, a command has at edge `c + 1 + n` made of the datapath what the steps due
within `n` edges of the first make of it, and it is running unless that is the completion edge. -/
theorem runEdges_command {s : State} {i : Instr} (wf : i.WellFormed) (idle : s.busy = false)
    (hc : stateCheck i s = none) (hp : Presents s i) {n : Nat} (hn : n ≤ duration i s)
    (hr : NoReset (n + 2) s) :
    ∃ t, runEdges (n + 2) s = .next t ∧
      SameDatapath t (ranBy (fun k => misoOf s (k + 1)) n 0 (expand i s) (s.started i)) ∧
      t.busy = decide (n < duration i s) := by
  have noReset : NoReset (n + 1) (s.started i).nextCycle := by
    intro k hk
    rw [State.nextCycle_portsAt]
    exact hr (k + 1) (by omega)
  have miso : misoOf (s.started i).nextCycle = fun k => misoOf s (k + 1) :=
    funext fun k => congrArg PortIn.miso (State.nextCycle_portsAt (s.started i) k)
  have left : (s.started i).nextCycle.dly.toNat + sumWaits (s.started i).nextCycle.steps + 1 =
      duration i s + 1 := by rw [← remaining_busy rfl, started_remaining]
  obtain ⟨t, ht, data, hb⟩ :=
    stepsRunOnSchedule (s.started i).nextCycle n rfl (by omega) noReset
  rw [miso] at data
  rw [left] at hb
  refine ⟨t, ?_, sameDatapath_trans data (ranBy_sameDatapath _ (sameDatapath_refl _)), ?_⟩
  · rw [Nat.add_comm (n + 1) 1, runEdges_add (runEdges_accepted wf idle hc hp), ht]
  · simpa using hb

/-! ### CSA and CSD to completion -/

/-- CSA's one step runs at the first edge (R150). -/
theorem ranBy_csa (miso : Nat → Bool) (n : Nat) (s : State) :
    ranBy miso n 0 [.cslo] s = s.openTxn := by
  rw [ranBy, if_pos (Nat.zero_le n)]
  rfl

/-- CSD's first edge releases chip select (R151). -/
theorem ranBy_csd_first (miso : Nat → Bool) (s : State) :
    ranBy miso 0 0 [.cshi, .ckidle] s = s.closeTxn := rfl

/-- From CSD's second edge on, SCLK is back at 0 (R151). -/
theorem ranBy_csd_later (miso : Nat → Bool) (n : Nat) (s : State) :
    ranBy miso (n + 1) 0 [.cshi, .ckidle] s = { s.closeTxn with sclk := false } := by
  have due : 0 + (SeqStep.wait .cshi).toNat ≤ n + 1 := Nat.le_add_left 1 n
  rw [ranBy, if_pos (Nat.zero_le _), ranBy, if_pos due]
  rfl

/-- Settles O42: CSLO runs at the edge after acceptance, and nothing but its wait follows. -/
theorem csaOpensATransaction : Obligations.CsaOpensATransaction := by
  unfold Obligations.CsaOpensATransaction
  intro s idle hc hp hr
  have check := stateCheck_csa hc
  have run : ∀ n ≤ 1, ∃ t, runEdges (n + 2) s = .next t ∧
      SameDatapath t (s.started .csa).openTxn ∧ t.busy = decide (n < 1) := by
    intro n hn
    have := runEdges_command rfl idle check hp (n := n) hn fun k hk => hr k (by omega)
    rwa [expand, ranBy_csa] at this
  refine ⟨⟨_, runEdges_accepted rfl idle check hp, rfl, hc⟩, ?_, ?_⟩
  · obtain ⟨t, ht, ⟨-, -, hcsN, harmed, hfirst, -⟩, hb⟩ := run 0 (by decide)
    exact ⟨t, ht, hb, hcsN, hfirst, harmed⟩
  · obtain ⟨t, ht, ⟨hsclk, hmosi, hcsN, harmed, hfirst, regs⟩, hb⟩ := run 1 le_rfl
    exact ⟨t, ht, hb, hcsN, hfirst, harmed, hsclk, hmosi, regs⟩

/-- Settles O43: CSHI runs at the edge after acceptance and CKIDLE at the next. -/
theorem csdClosesTheTransaction : Obligations.CsdClosesTheTransaction := by
  unfold Obligations.CsdClosesTheTransaction
  intro s idle hc hp hr
  have check := stateCheck_csd hc
  have run := fun n (hn : n ≤ 2) =>
    runEdges_command rfl idle check hp (n := n) hn fun k hk => hr k (by omega)
  refine ⟨?_, ?_, ?_⟩
  · obtain ⟨t, ht, data, hb⟩ := run 0 (by decide)
    rw [expand, ranBy_csd_first] at data
    obtain ⟨hsclk, -, hcsN, harmed, hfirst, -⟩ := data
    exact ⟨t, ht, hb, hcsN, hsclk, hfirst, harmed⟩
  · obtain ⟨t, ht, data, hb⟩ := run 1 (by decide)
    rw [expand, ranBy_csd_later] at data
    obtain ⟨hsclk, -, hcsN, -⟩ := data
    exact ⟨t, ht, hb, hcsN, hsclk⟩
  · obtain ⟨t, ht, data, hb⟩ := run 2 le_rfl
    rw [expand, ranBy_csd_later] at data
    obtain ⟨hsclk, hmosi, hcsN, harmed, hfirst, regs⟩ := data
    exact ⟨t, ht, hb, hcsN, hsclk, hmosi, hfirst, harmed, regs⟩

end Sys2Proof.Machine
end

section
/-! SUPPORT. The byte transfers (42_transfer.md): the bit periods of a byte on the schedule of R127, and how
SEND and RECV start and run to completion. -/

namespace Sys2Proof.Machine

open Sys2Proof.Safety

/-! ### The start of SEND and RECV (R160, R165) -/

theorem stateCheck_send {s : State} (b : Byte) (hc : s.csN = false) :
    stateCheck (.send b) s = none := by
  simp [stateCheck, hc]

theorem stateCheck_recv {s : State} (hc : s.csN = false) (ha : s.rdArmed = true) :
    stateCheck .recv s = none := by
  simp [stateCheck, hc, ha]

/-- Settles O21: SEND passes its state check. -/
theorem sendStarts : Obligations.SendStarts := by
  unfold Obligations.SendStarts
  exact fun s b idle hc => exec_starts rfl idle (stateCheck_send b hc)

/-- Settles O22: RECV passes its state check. -/
theorem recvStarts : Obligations.RecvStarts := by
  unfold Obligations.RecvStarts
  exact fun s idle hc ha => exec_starts rfl idle (stateCheck_recv hc ha)

/-! ### Lists on the schedule (R127) -/

/-- A list runs, and what follows it starts the sum of its waits later. -/
theorem ranBy_append {miso : Nat → Bool} {n e : Nat} (l l' : List SeqStep) (s : State) :
    ranBy miso n e (l ++ l') s =
      ranBy miso n (e + sumWaits l) l' (ranBy miso n e l s) := by
  induction l generalizing e s with
  | nil => rfl
  | cons x rest ih =>
    by_cases he : e ≤ n
    · rw [List.cons_append, ranBy, if_pos he, ranBy, if_pos he, ih, sumWaits, Nat.add_assoc]
    · rw [ranBy_none_due (by omega), ranBy_none_due (by omega), ranBy_none_due (by omega)]

/-- What every action of a list keeps, the schedule keeps. -/
theorem ranBy_keeps {α : Type} {miso : Nat → Bool} {n e : Nat} (f : State → α) {l : List SeqStep}
    (keeps : ∀ x ∈ l, ∀ m s, f (x.action m s) = f s) (s : State) :
    f (ranBy miso n e l s) = f s := by
  induction l generalizing e s with
  | nil => rfl
  | cons x rest ih =>
    obtain ⟨head, tail⟩ := List.forall_mem_cons.1 keeps
    rw [ranBy]
    split
    · exact (ih tail _).trans (head _ s)
    · rfl

/-! ### The bit periods of a byte (R125, R132) -/

/-- The first `j` bit periods of a byte, each a step of the low half and one of the high half. -/
def bitSteps (lo : Fin 8 → SeqStep) (hi : SeqStep) (j : Nat) : List SeqStep :=
  ((List.finRange 8).take j).flatMap fun i => [lo i, hi]

/-- The steps of a bit period wait the half period `h` each (R132). -/
structure HalfPeriods (lo : Fin 8 → SeqStep) (hi : SeqStep) (h : Count) : Prop where
  low : ∀ i, (lo i).wait = h
  high : hi.wait = h

theorem txHalfPeriods (b : Byte) (h : Count) : HalfPeriods (SeqStep.txlo · b h) (.txhi h) h :=
  ⟨fun _ => rfl, rfl⟩

theorem rxHalfPeriods (h : Count) : HalfPeriods (SeqStep.rxlo · h) (.rxhi h) h :=
  ⟨fun _ => rfl, rfl⟩

theorem txBits_eq_bitSteps (b : Byte) (h : Count) (r : Byte) :
    txBits b h r = bitSteps (SeqStep.txlo · b h) (.txhi h) 8 ++ [.txend b r] := rfl

theorem rxBits_eq_bitSteps (h : Count) :
    rxBits h = bitSteps (SeqStep.rxlo · h) (.rxhi h) 8 ++ [.rxend] := rfl

section
variable {lo : Fin 8 → SeqStep} {hi : SeqStep}

theorem bitSteps_succ (i : Fin 8) :
    bitSteps lo hi (i.val + 1) = bitSteps lo hi i.val ++ [lo i, hi] := by
  have bit : (List.finRange 8)[i.val]? = some i := by simp
  rw [bitSteps, List.take_add_one, bit, List.flatMap_append]
  rfl

/-- The first `j` bit periods begin the byte. -/
theorem bitSteps_split (j : Nat) :
    ∃ rest, bitSteps lo hi 8 = bitSteps lo hi j ++ rest := by
  refine ⟨((List.finRange 8).drop j).flatMap fun i => [lo i, hi], ?_⟩
  rw [bitSteps, bitSteps, ← List.flatMap_append, List.take_append_drop]
  rfl

variable {h : Count} (halves : HalfPeriods lo hi h)
include halves

/-- A bit period takes two half periods. -/
theorem sumWaits_bitSteps {j : Nat} (hj : j ≤ 8) : sumWaits (bitSteps lo hi j) = 2 * j * h.toNat := by
  induction j with
  | zero => simp [bitSteps, sumWaits]
  | succ j ih =>
    rw [bitSteps_succ ⟨j, hj⟩, sumWaits_append, ih (by omega)]
    simp only [sumWaits, halves.low, halves.high]
    ring

variable {miso : Nat → Bool} {n e : Nat}

/-- Before bit period `j` begins, only the bit periods before it have run. -/
theorem ranBy_bitSteps_before {j : Nat} (hj : j ≤ 8) (hn : n < e + 2 * j * h.toNat)
    (l : List SeqStep) (s : State) :
    ranBy miso n e (bitSteps lo hi 8 ++ l) s = ranBy miso n e (bitSteps lo hi j) s := by
  obtain ⟨rest, whole⟩ := bitSteps_split (lo := lo) (hi := hi) j
  rw [whole, List.append_assoc, ranBy_append, sumWaits_bitSteps halves hj, ranBy_none_due hn]

/-- The low half of bit period `i`: its first step has run on what the bits before left. -/
theorem ranBy_bitSteps_low (i : Fin 8) (due : e + 2 * i.val * h.toNat ≤ n)
    (hn : n < e + (2 * i.val + 1) * h.toNat) (s : State) :
    ranBy miso n e (bitSteps lo hi (i.val + 1)) s =
      (lo i).action (miso (e + 2 * i.val * h.toNat)) (ranBy miso n e (bitSteps lo hi i.val) s) := by
  have later : n < e + 2 * i.val * h.toNat + (lo i).wait.toNat := by
    rw [halves.low]
    linarith
  rw [bitSteps_succ, ranBy_append, sumWaits_bitSteps halves (by omega), ranBy, if_pos due,
    ranBy_none_due later]

/-- From the high half of bit period `i` on, both its steps have run on what the bits before left. -/
theorem ranBy_bitSteps_high (i : Fin 8) (due : e + (2 * i.val + 1) * h.toNat ≤ n) (s : State) :
    ranBy miso n e (bitSteps lo hi (i.val + 1)) s =
      hi.action (miso (e + (2 * i.val + 1) * h.toNat)) ((lo i).action
        (miso (e + 2 * i.val * h.toNat)) (ranBy miso n e (bitSteps lo hi i.val) s)) := by
  have half : e + 2 * i.val * h.toNat + (lo i).wait.toNat = e + (2 * i.val + 1) * h.toNat := by
    rw [halves.low]
    ring
  have before : e + 2 * i.val * h.toNat ≤ n := by linarith
  rw [bitSteps_succ, ranBy_append, sumWaits_bitSteps halves (by omega), ranBy, if_pos before,
    half, ranBy, if_pos due, ranBy]

/-- The step after the eight bit periods runs 16 half periods after the first. -/
theorem ranBy_bitSteps_end (due : e + 16 * h.toNat ≤ n) (x : SeqStep) (s : State) :
    ranBy miso n e (bitSteps lo hi 8 ++ [x]) s =
      x.action (miso (e + 16 * h.toNat)) (ranBy miso n e (bitSteps lo hi 8) s) := by
  rw [ranBy_append, sumWaits_bitSteps halves le_rfl, ranBy, if_pos due, ranBy]

/-- What the low half of each bit period makes of the machine, from what it makes of it at the first bit
and from one bit period to the next. -/
theorem action_ranBy_bitSteps {s : State} (lowHalf : Nat → State)
    (first : ∀ m, (lo 0).action m s = lowHalf 0)
    (next : ∀ j (hj : j + 1 < 8) m, (lo ⟨j + 1, hj⟩).action m
      (hi.action (miso (e + (2 * j + 1) * h.toNat)) (lowHalf j)) = lowHalf (j + 1))
    (i : Fin 8) (due : e + 2 * i.val * h.toNat ≤ n) (m : Bool) :
    (lo i).action m (ranBy miso n e (bitSteps lo hi i.val) s) = lowHalf i.val := by
  obtain ⟨j, hj⟩ := i
  induction j generalizing m with
  | zero => exact first m
  | succ j ih =>
    have later : e + 2 * (j + 1) * h.toNat ≤ n := due
    have high : e + (2 * j + 1) * h.toNat ≤ n := by linarith
    have low : e + 2 * j * h.toNat ≤ n := by linarith
    rw [ranBy_bitSteps_high halves ⟨j, by omega⟩ high, ih _ (by omega) low]
    exact next j hj m

end

/-! ### A transmitted byte (R160 to R163) -/

/-- Bit `j` of the byte in serial order is on MOSI, with SCLK at `clk`. -/
def State.txBit (s : State) (b : Byte) (j : Nat) (clk : Bool) : State :=
  { s with mosi := b.getLsbD (7 - j), sr := b <<< (j + 1), sclk := clk }

/-- The first bit is the byte's top bit (R161). -/
theorem txLow_first (s : State) (b : Byte) : s.txLow 0 b = s.txBit b 0 false := rfl

/-- Each later bit is the top bit of what SR holds (R161). -/
theorem txLow_next (s : State) (b : Byte) {j : Nat} (hj : j + 1 < 8) :
    (s.txBit b j true).txLow ⟨j + 1, hj⟩ b = s.txBit b (j + 1) false := by
  have top : (b <<< (j + 1)).getLsbD 7 = b.getLsbD (7 - (j + 1)) := by
    have kept : ¬7 < j + 1 := by omega
    rw [BitVec.getLsbD_shiftLeft, decide_eq_false kept]
    rfl
  have later : (⟨j + 1, hj⟩ : Fin 8) ≠ 0 := by simp [Fin.ext_iff]
  rw [State.txBit, State.txBit, BitVec.shiftLeft_add b (j + 1) 1, ← top, State.txLow, if_neg later]

section
variable {miso : Nat → Bool} {n e : Nat} {b : Byte} {h : Count}

/-- TXLO of bit `i` drives that bit, whatever the line held before the byte. -/
theorem txlo_ranBy (i : Fin 8) (due : e + 2 * i.val * h.toNat ≤ n) (m : Bool) (s : State) :
    (SeqStep.txlo i b h).action m
      (ranBy miso n e (bitSteps (SeqStep.txlo · b h) (.txhi h) i.val) s) = s.txBit b i.val false :=
  action_ranBy_bitSteps (txHalfPeriods b h) (s.txBit b · false) (fun _ => txLow_first s b)
    (fun _ hj _ => txLow_next s b hj) i due m

/-- The low half of bit `i` (R132). -/
theorem ranBy_txBits_low (i : Fin 8) (due : e + 2 * i.val * h.toNat ≤ n)
    (hn : n < e + (2 * i.val + 1) * h.toNat) (r : Byte) (s : State) :
    ranBy miso n e (txBits b h r) s = s.txBit b i.val false := by
  have next : n < e + 2 * (i.val + 1) * h.toNat := by linarith
  rw [txBits_eq_bitSteps, ranBy_bitSteps_before (txHalfPeriods b h) i.isLt next,
    ranBy_bitSteps_low (txHalfPeriods b h) i due hn, txlo_ranBy i due]

/-- Both halves of bit `i` have run (R132). -/
theorem ranBy_txBits_bit (i : Fin 8) (due : e + (2 * i.val + 1) * h.toNat ≤ n) (s : State) :
    ranBy miso n e (bitSteps (SeqStep.txlo · b h) (.txhi h) (i.val + 1)) s =
      s.txBit b i.val true := by
  have low : e + 2 * i.val * h.toNat ≤ n := by linarith
  rw [ranBy_bitSteps_high (txHalfPeriods b h) i due, txlo_ranBy i low]
  rfl

/-- The high half of bit `i` (R132). -/
theorem ranBy_txBits_high (i : Fin 8) (due : e + (2 * i.val + 1) * h.toNat ≤ n)
    (hn : n < e + 2 * (i.val + 1) * h.toNat) (r : Byte) (s : State) :
    ranBy miso n e (txBits b h r) s = s.txBit b i.val true := by
  rw [txBits_eq_bitSteps, ranBy_bitSteps_before (txHalfPeriods b h) i.isLt hn, ranBy_txBits_bit i due]

/-- The whole byte: its last bit is on the line and the read-arming has acted (R163). -/
theorem ranBy_txBits_end (due : e + 16 * h.toNat ≤ n) (r : Byte) (s : State) :
    ranBy miso n e (txBits b h r) s = (s.txBit b 7 true).arm b r := by
  have last : e + 15 * h.toNat ≤ n := by omega
  rw [txBits_eq_bitSteps, ranBy_bitSteps_end (txHalfPeriods b h) due]
  exact congrArg (State.arm · b r) (ranBy_txBits_bit 7 last s)

end

/-- Settles O44: each edge falls in one half of one bit period. -/
theorem sendDrivesBitsMsbFirst : Obligations.SendDrivesBitsMsbFirst := by
  unfold Obligations.SendDrivesBitsMsbFirst
  intro s b i k idle hc hp hr
  have check := stateCheck_send b hc
  have within : 2 * (i.val + 1) * s.hp.toNat ≤ 16 * s.hp.toNat := Nat.mul_le_mul_right _ (by omega)
  have run : ∀ n clk, n < 2 * (i.val + 1) * s.hp.toNat →
      ranBy (fun k => misoOf s (k + 1)) n 0 (txBits b s.hp s.rdop) (s.started (.send b)) =
        (s.started (.send b)).txBit b i.val clk →
      ∃ t, runEdges (2 + n) s = .next t ∧ t.mosi = b.getLsbD (7 - i.val) ∧ t.sclk = clk ∧
        t.csN = false := by
    intro n clk hn bit
    obtain ⟨t, ht, data, -⟩ := runEdges_command rfl idle check hp (n := n)
      (le_trans hn.le within) fun k hk => hr k (by omega)
    rw [expand, bit] at data
    obtain ⟨hsclk, hmosi, hcsN, -⟩ := data
    exact ⟨t, Nat.add_comm n 2 ▸ ht, hmosi, hsclk, hcsN.trans hc⟩
  constructor
  · intro hk
    rw [Nat.add_assoc]
    exact run _ false (by linarith) (ranBy_txBits_low i (by linarith) (by linarith) _ _)
  · intro hk
    rw [Nat.add_assoc]
    exact run _ true (by linarith) (ranBy_txBits_high i (by linarith) (by linarith) _ _)

/-- Settles O45: the completion edge is 16 half periods after the first bit's edge. -/
theorem sendArmsReadsOnFirstByte : Obligations.SendArmsReadsOnFirstByte := by
  unfold Obligations.SendArmsReadsOnFirstByte
  intro s b idle hc hp hr
  obtain ⟨t, ht, data, hb⟩ := runEdges_command rfl idle (stateCheck_send b hc) hp le_rfl hr
  have whole : 0 + 16 * s.hp.toNat ≤ duration (.send b) s := (Nat.zero_add _).le
  rw [expand, ranBy_txBits_end whole] at data
  obtain ⟨hsclk, hmosi, hcsN, harmed, hfirst, hrx, hsr, regs⟩ := data
  have shifted : b <<< 8 = 0 := BitVec.shiftLeft_eq_zero le_rfl
  exact ⟨t, ht, hb.trans (decide_eq_false (lt_irrefl _)), hsclk, hmosi, hcsN.trans hc,
    hsr.trans shifted, hfirst, harmed, hrx, regs⟩

/-! ### A received byte (R165 to R168) -/

/-- SR after `j` samples, where bit `k` of the byte in serial order is sampled as `bit k` (R167). -/
def sampled (bit : Nat → Bool) : Nat → Byte
  | 0 => 0
  | j + 1 => (sampled bit j).extractLsb' 0 7 ++ BitVec.ofBool (bit j)

/-- Each sample stands above those after it. -/
theorem sampled_getLsbD (bit : Nat → Bool) {i j : Nat} (hj : j ≤ 8) (hi : i < j) :
    (sampled bit j).getLsbD (j - 1 - i) = bit i := by
  induction j with
  | zero => omega
  | succ j ih =>
    rw [sampled, BitVec.getLsbD_append]
    rcases Nat.lt_succ_iff_lt_or_eq.1 hi with before | rfl
    · have above : ¬j + 1 - 1 - i < 1 := by omega
      have kept : j + 1 - 1 - i - 1 < 7 := by omega
      have index : 0 + (j + 1 - 1 - i - 1) = j - 1 - i := by omega
      rw [if_neg above, BitVec.getLsbD_extractLsb', decide_eq_true kept, Bool.true_and, index,
        ih (by omega) before]
    · simp

/-- `v` is in SR and SCLK is at `clk`. -/
def State.rxBit (s : State) (v : Byte) (clk : Bool) : State := { s with sr := v, sclk := clk }

/-- Past the first bit, RXLO leaves the samples in SR alone (R166). -/
theorem rxLow_next (s : State) (bit : Nat → Bool) {j : Nat} (hj : j + 1 < 8) :
    ((s.rxBit (sampled bit j) false).rxHigh (bit j)).rxLow ⟨j + 1, hj⟩ =
      s.rxBit (sampled bit (j + 1)) false := by
  rw [State.rxLow, if_neg (by simp [Fin.ext_iff])]
  rfl

section
variable {miso : Nat → Bool} {n e : Nat} {h : Count}

/-- RXLO of bit `i` keeps the samples of the bits before it and nothing older (R166). -/
theorem rxlo_ranBy (i : Fin 8) (due : e + 2 * i.val * h.toNat ≤ n) (m : Bool) (s : State) :
    (SeqStep.rxlo i h).action m
      (ranBy miso n e (bitSteps (SeqStep.rxlo · h) (.rxhi h) i.val) s) =
        s.rxBit (sampled (fun j => miso (e + (2 * j + 1) * h.toNat)) i.val) false :=
  action_ranBy_bitSteps (rxHalfPeriods h)
    (fun j => s.rxBit (sampled (fun j => miso (e + (2 * j + 1) * h.toNat)) j) false)
    (fun _ => rfl) (fun _ hj _ => rxLow_next s _ hj) i due m

/-- The whole byte, sampled where SCLK rises, is delivered (R133, R168). -/
theorem ranBy_rxBits_end (due : e + 16 * h.toNat ≤ n) (s : State) :
    ranBy miso n e (rxBits h) s =
      (s.rxBit (sampled (fun j => miso (e + (2 * j + 1) * h.toNat)) 8) true).deliver := by
  have low : e + 14 * h.toNat ≤ n := by omega
  have high : e + 15 * h.toNat ≤ n := by omega
  have bits := ranBy_bitSteps_high (miso := miso) (rxHalfPeriods h) 7 high s
  rw [rxlo_ranBy 7 low] at bits
  rw [rxBits_eq_bitSteps, ranBy_bitSteps_end (rxHalfPeriods h) due]
  exact congrArg State.deliver bits

/-- Before the byte's end, RXDATA is what it was (R168). -/
theorem ranBy_rxBits_rxdata (hn : n < e + 16 * h.toNat) (s : State) :
    (ranBy miso n e (rxBits h) s).rxdata = s.rxdata := by
  rw [rxBits_eq_bitSteps, ranBy_bitSteps_before (rxHalfPeriods h) le_rfl hn]
  refine ranBy_keeps State.rxdata (fun x hx m u => ?_) s
  obtain ⟨i, -, hx⟩ := List.mem_flatMap.1 hx
  fin_cases hx <;> rfl

end

/-- Settles O46: the samples of the eight bit periods, delivered at the completion edge. -/
theorem recvAssemblesTheSampledByte : Obligations.RecvAssemblesTheSampledByte := by
  unfold Obligations.RecvAssemblesTheSampledByte
  intro s idle hc ha hp hr
  have check := stateCheck_recv hc ha
  constructor
  · intro k hk
    match k with
    | 0 => exact ⟨s, rfl, rfl⟩
    | 1 => exact ⟨_, runEdges_accepted rfl idle check hp, rfl⟩
    | n + 2 =>
      have before : n < 16 * s.hp.toNat := by omega
      obtain ⟨t, ht, ⟨-, -, -, -, -, hrx, -⟩, -⟩ :=
        runEdges_command rfl idle check hp before.le fun k hk => hr k (by omega)
      rw [expand, ranBy_rxBits_rxdata (by omega)] at hrx
      exact ⟨t, ht, hrx⟩
  · obtain ⟨t, ht, data, hb⟩ := runEdges_command rfl idle check hp le_rfl hr
    have whole : 0 + 16 * s.hp.toNat ≤ duration .recv s := (Nat.zero_add _).le
    rw [expand, ranBy_rxBits_end whole] at data
    obtain ⟨hsclk, hmosi, hcsN, harmed, hfirst, hrx, -, regs⟩ := data
    refine ⟨t, ht, hb.trans (decide_eq_false (lt_irrefl _)), fun i => ?_, ?_, hsclk, hmosi,
      hcsN.trans hc, harmed.trans ha, hfirst, regs⟩
    · rw [hrx, State.deliver_rxdata, BitVec.getLsbD_append, if_pos (by omega)]
      refine (sampled_getLsbD _ (j := 8) le_rfl i.isLt).trans ?_
      exact congrArg (misoOf s) (by omega)
    · rw [hrx, State.deliver_rxdata]
      exact BitVec.extractLsb'_append_eq_left

end Sys2Proof.Machine
end

section
/-! SUPPORT. The delay (43_delay.md): how WAIT starts, and that its one step does nothing but wait. -/

namespace Sys2Proof.Machine

open Sys2Proof.Safety

/-- Settles O23: WAIT has no state check to fail, inside a transaction or outside (R180). -/
theorem waitStarts : Obligations.WaitStarts := by
  unfold Obligations.WaitStarts
  exact fun s n idle => exec_starts rfl idle rfl

/-- A hold makes nothing of the datapath, whether it is in the list (R180) or not (`count = 0`). -/
theorem ranBy_hold (miso : Nat → Bool) (n e : Nat) (count : Count) (s : State) :
    ranBy miso n e (if count = 0 then [] else [.hold count]) s = s := by
  refine ranBy_keeps id (fun x hx m u => ?_) s
  split at hx
  case isTrue => cases hx
  case isFalse =>
    cases List.mem_singleton.1 hx
    rfl

/-- Settles O47: the acceptance edge only loads the hold, and the schedule of a hold keeps the rest. -/
theorem waitHoldsEverything : Obligations.WaitHoldsEverything := by
  unfold Obligations.WaitHoldsEverything
  intro s count k idle hp hr hk
  match k with
  | 0 => exact ⟨s, rfl, sameDatapath_refl s, idle⟩
  | 1 =>
    refine ⟨_, runEdges_accepted rfl idle rfl hp, sameDatapath_refl s, ?_⟩
    exact (decide_eq_true ⟨le_rfl, Nat.le_add_left 1 _⟩).symm
  | n + 2 =>
    have within : n ≤ duration (.wait count) s := Nat.le_of_add_le_add_right hk
    obtain ⟨t, ht, data, hb⟩ :=
      runEdges_command rfl idle rfl hp within fun j hj => hr j (by omega)
    rw [expand, ranBy_hold] at data
    refine ⟨t, ht, data, hb.trans (decide_eq_decide.2 ?_)⟩
    show n < count.toNat ↔ 1 ≤ n + 2 ∧ n + 2 ≤ count.toNat + 1
    omega

end Sys2Proof.Machine
end

section
/-! SUPPORT. The device transactions (44_transactions.md): how DISPW, DEVW and DEVR start, and DEVR run
to completion. -/

namespace Sys2Proof.Machine

open Sys2Proof.Safety

/-! ### The start of the transactions (R190, R195, R200) -/

theorem stateCheck_dispw {s : State} (a d : Byte) (hc : s.csN = true) :
    stateCheck (.dispw a d) s = none := by
  simp [stateCheck, hc]

theorem stateCheck_devw {s : State} (a d : Byte) (hc : s.csN = true) :
    stateCheck (.devw a d) s = none := by
  simp [stateCheck, hc]

theorem stateCheck_devr {s : State} (a k : Byte) (hc : s.csN = true) :
    stateCheck (.devr a k) s = none := by
  simp [stateCheck, hc]

theorem devr_wellFormed (a : Byte) {k : Byte} (h1 : 1 ≤ k.toNat) (h4 : k.toNat ≤ 4) :
    (Instr.devr a k).WellFormed := by
  show devrCountOk k = true
  rw [devrCountOk, decide_eq_true h1, Config.devrMax, decide_eq_true h4]
  rfl

/-- Settles O24: DISPW passes its state check. -/
theorem dispwStarts : Obligations.DispwStarts := by
  unfold Obligations.DispwStarts
  exact fun s a d idle hc => exec_starts rfl idle (stateCheck_dispw a d hc)

/-- Settles O25: DEVW passes its state check. -/
theorem devwStarts : Obligations.DevwStarts := by
  unfold Obligations.DevwStarts
  exact fun s a d idle hc => exec_starts rfl idle (stateCheck_devw a d hc)

/-- Settles O26: a DEVR with a legal count is well formed and passes its state check. -/
theorem devrStarts : Obligations.DevrStarts := by
  unfold Obligations.DevrStarts
  exact fun s a k idle hc h1 h4 =>
    exec_starts (devr_wellFormed a h1 h4) idle (stateCheck_devr a k hc)

/-! ### The bytes of a DEVR (R168, R200, R201) -/

/-- RXDATA after `k` received bytes, where byte `j` is `byte j`: each enters at the low end (R168). -/
def received (byte : Nat → Byte) (v : Word) : Nat → Word
  | 0 => v
  | k + 1 => (received byte v k).extractLsb' 0 24 ++ byte k

/-- Up to four bytes stand whole in RXDATA, each above those after it. -/
theorem received_getLsbD (byte : Nat → Byte) (v : Word) {j k m : Nat} (hk : k ≤ 4) (hj : j < k)
    (hm : m < 8) : (received byte v k).getLsbD (8 * (k - 1 - j) + m) = (byte j).getLsbD m := by
  induction k with
  | zero => omega
  | succ k ih =>
    rw [received, BitVec.getLsbD_append]
    rcases Nat.lt_succ_iff_lt_or_eq.1 hj with before | rfl
    · have above : ¬8 * (k + 1 - 1 - j) + m < 8 := by omega
      have kept : 8 * (k + 1 - 1 - j) + m - 8 < 24 := by omega
      have index : 0 + (8 * (k + 1 - 1 - j) + m - 8) = 8 * (k - 1 - j) + m := by omega
      rw [if_neg above, BitVec.getLsbD_extractLsb', decide_eq_true kept, Bool.true_and, index,
        ih (by omega) before]
    · have index : 8 * (j + 1 - 1 - j) + m = m := by omega
      rw [index, if_pos hm]

/-- Received into an empty RXDATA, `k` bytes leave zeros above them (R200). -/
theorem received_zeros_above (byte : Nat → Byte) {k m : Nat} (hm : 8 * k ≤ m) :
    (received byte 0 k).getLsbD m = false := by
  induction k generalizing m with
  | zero => exact BitVec.getLsbD_zero
  | succ k ih =>
    have above : ¬m < 8 := by omega
    have index : 0 + (m - 8) = m - 8 := Nat.zero_add _
    rw [received, BitVec.getLsbD_append, if_neg above, BitVec.getLsbD_extractLsb', index,
      ih (by omega), Bool.and_false]

section
variable {miso : Nat → Bool} {n e : Nat} {h : Count}

/-- After `k` received bytes RXDATA holds the samples of each, byte `j` sampled from `16 * j` half
periods after the first byte's edge on (R201). -/
theorem ranBy_rxBytes_rxdata (k : Nat) (due : e + 16 * k * h.toNat ≤ n) (s : State) :
    (ranBy miso n e (List.replicate k (rxBits h)).flatten s).rxdata =
      received (fun j => sampled (fun i => miso (e + 16 * j * h.toNat + (2 * i + 1) * h.toNat)) 8)
        s.rxdata k := by
  induction k with
  | zero => rfl
  | succ k ih =>
    have waits : sumWaits (List.replicate k (rxBits h)).flatten = 16 * k * h.toNat := by
      rw [sumWaits_replicate_flatten, sumWaits_rxBits]
      ring
    have last : e + 16 * k * h.toNat + 16 * h.toNat ≤ n := by linarith
    rw [List.replicate_succ', List.flatten_concat, ranBy_append, waits, ranBy_rxBits_end last,
      State.deliver_rxdata, received, ← ih (by linarith)]
    rfl

/-- Received bytes leave MOSI and the configuration alone (R166). -/
theorem ranBy_rxBytes_keeps (k : Nat) (s : State) {t : State}
    (ht : t = ranBy miso n e (List.replicate k (rxBits h)).flatten s) :
    t.mosi = s.mosi ∧ t.hp = s.hp ∧ t.st = s.st ∧ t.wrop = s.wrop ∧ t.rdop = s.rdop := by
  have keeps := ranBy_keeps (miso := miso) (n := n) (e := e)
    (l := (List.replicate k (rxBits h)).flatten)
    (fun s => (s.mosi, s.hp, s.st, s.wrop, s.rdop)) (fun x hx m u => ?_) s
  · rw [← ht] at keeps
    simpa only [Prod.mk.injEq] using keeps
  · obtain ⟨l, hl, hx⟩ := List.mem_flatten.1 hx
    rw [List.eq_of_mem_replicate hl, rxBits_eq_bitSteps] at hx
    rcases List.mem_append.1 hx with bit | last
    · obtain ⟨i, -, bit⟩ := List.mem_flatMap.1 bit
      fin_cases bit <;> rfl
    · cases List.mem_singleton.1 last
      rfl

/-- CSHI and CKIDLE close the transaction and return the clock to 0 (R151). -/
theorem ranBy_close (due : e + 1 ≤ n) (s : State) :
    ranBy miso n e [.cshi, .ckidle] s = { s.closeTxn with sclk := false } := by
  have second : e + (SeqStep.wait .cshi).toNat ≤ n := due
  rw [ranBy, if_pos (by omega), ranBy, if_pos second]
  rfl

end

/-- A DEVR's list at its completion edge: two bytes were sent, `k` were received, the transaction was
closed (R200). -/
theorem ranBy_devr {miso : Nat → Bool} (a k : Byte) (s t : State) :
    ranBy miso (duration (.devr a k) s) 0 (expand (.devr a k) s) t =
      { (ranBy miso (duration (.devr a k) s) (1 + 32 * s.hp.toNat)
          (List.replicate k.toNat (rxBits s.hp)).flatten
          ((((t.openTxn.txBit s.rdop 7 true).arm s.rdop s.rdop).txBit a 7 true).arm a
            s.rdop)).closeTxn with sclk := false } := by
  have total : duration (.devr a k) s = 32 * s.hp.toNat + 16 * (k.toNat * s.hp.toNat) + 3 := by
    rw [duration]
    ring
  have opens : sumWaits [.cslo] = 1 := rfl
  have sent : 0 + (1 + 16 * s.hp.toNat + 16 * s.hp.toNat) = 1 + 32 * s.hp.toNat := by omega
  rw [expand, ranBy_append, ranBy_append, ranBy_append, ranBy_append, ranBy_csa]
  simp only [sumWaits_append, sumWaits_txBits, sumWaits_replicate_flatten, sumWaits_rxBits, opens]
  rw [ranBy_txBits_end (by omega), ranBy_txBits_end (by omega), ranBy_close (by linarith), sent]

/-- Settles O48: RXDATA is what the received bytes make of 0, and CSHI and CKIDLE leave the pins idle. -/
theorem devrReturnsTheBytesRead : Obligations.DevrReturnsTheBytesRead := by
  unfold Obligations.DevrReturnsTheBytesRead
  intro s a k idle hc h1 h4 hp hr
  obtain ⟨t, ht, data, hb⟩ := runEdges_command (devr_wellFormed a h1 h4) idle
    (stateCheck_devr a k hc) hp le_rfl hr
  have due : 1 + 32 * s.hp.toNat + 16 * k.toNat * s.hp.toNat ≤ duration (.devr a k) s := by
    rw [duration]
    linarith
  rw [ranBy_devr] at data
  obtain ⟨hsclk, hmosi, hcsN, harmed, hfirst, hrx, -, hhp, hst, hwrop, hrdop⟩ := data
  obtain ⟨kmosi, khp, kst, kwrop, krdop⟩ := ranBy_rxBytes_keeps k.toNat _ rfl
  replace hrx := hrx.trans (ranBy_rxBytes_rxdata k.toNat due _)
  refine ⟨t, ht, hb.trans (decide_eq_false (lt_irrefl _)), fun j i hj => ?_, fun m hm => ?_, hsclk,
    hcsN, hmosi.trans kmosi, hfirst, harmed, hhp.trans khp, hst.trans kst, hwrop.trans kwrop,
    hrdop.trans krdop⟩
  · rw [hrx, received_getLsbD _ _ h4 hj (by omega)]
    refine (sampled_getLsbD _ (j := 8) le_rfl i.isLt).trans ?_
    exact congrArg (misoOf s) (by ring)
  · rw [hrx]
    exact received_zeros_above _ hm

end Sys2Proof.Machine
end

section
/-! SUPPORT. Host scripts of transmitting commands (30_encoding.md R98): what each edge, each `sync`
and each `do` puts on MOSI at the rising edges of SCLK, and the state it leads to
(95_test_vectors.md, "MOSI@rise"). -/

namespace Sys2Proof.Machine

open Sys2Proof.Safety

/-! ### Steps that transmit -/

/-- A list of steps that a reachable machine can have and that takes no sample of MISO. -/
def Transmits (l : List SeqStep) : Prop := ∀ x ∈ l, legalWait x = true ∧ ∀ h, x ≠ .rxhi h

/-- MOSI at the rising edges of SCLK that the steps of a list make when they run in order. It is spoken
of for lists that take no sample (`Transmits`), so the level MISO is given does not matter. -/
def stepRises : List SeqStep → State → List Bool
  | [], _ => []
  | x :: rest, s => mosiAtRise s [x.action false s] ++ stepRises rest (x.action false s)

theorem actions_append (m : Bool) (l l' : List SeqStep) (s : State) :
    actions m (l ++ l') s = actions m l' (actions m l s) := List.foldl_append

theorem stepRises_append (l l' : List SeqStep) (s : State) :
    stepRises (l ++ l') s = stepRises l s ++ stepRises l' (actions false l s) := by
  induction l generalizing s with
  | nil => rfl
  | cons x rest ih =>
    rw [List.cons_append, stepRises, stepRises, ih, List.append_assoc]
    rfl

theorem actions_sameRest (m : Bool) (l : List SeqStep) (s : State) : SameRest s (actions m l s) := by
  induction l generalizing s with
  | nil => exact .refl s
  | cons x rest ih => exact (action_sameRest m s x).trans (ih _)

theorem actions_sameDatapath (m : Bool) (l : List SeqStep) {s t : State} (h : SameDatapath s t) :
    SameDatapath (actions m l s) (actions m l t) := by
  induction l generalizing s t with
  | nil => exact h
  | cons x rest ih => exact ih (action_sameDatapath m x h)

/-! ### Rising edges of SCLK along a run -/

/-- The rising edges depend only on SCLK and MOSI. -/
theorem mosiAtRise_single_congr {s s' t t' : State} (hs : s.sclk = s'.sclk) (ht : t.sclk = t'.sclk)
    (hm : t.mosi = t'.mosi) : mosiAtRise s [t] = mosiAtRise s' [t'] := by
  rw [mosiAtRise, mosiAtRise, hs, ht, hm]
  rfl

/-- Where SCLK stays as it was, it does not rise. -/
theorem mosiAtRise_single_same {s t : State} (h : t.sclk = s.sclk) : mosiAtRise s [t] = [] := by
  rw [mosiAtRise, h]
  cases s.sclk <;> rfl

/-- Where SCLK is left low, it does not rise. -/
theorem mosiAtRise_single_low {s t : State} (h : t.sclk = false) : mosiAtRise s [t] = [] := by
  rw [mosiAtRise, h, Bool.and_false]
  rfl

theorem mosiAtRise_cons (s t : State) (later : List State) :
    mosiAtRise s (t :: later) = mosiAtRise s [t] ++ mosiAtRise t later := by
  rw [mosiAtRise, mosiAtRise, mosiAtRise, List.append_nil]

theorem stepRises_sameDatapath (l : List SeqStep) {s t : State} (h : SameDatapath s t) :
    stepRises l s = stepRises l t := by
  induction l generalizing s t with
  | nil => rfl
  | cons x rest ih =>
    have h' := action_sameDatapath false x h
    obtain ⟨hsclk, -⟩ := h
    rw [stepRises, stepRises, ih h']
    obtain ⟨hsclk', hmosi', -⟩ := h'
    rw [mosiAtRise_single_congr hsclk hsclk' hmosi']

/-! ### One edge of a transmitting command -/

/-- The command that runs in `s` is to put `bits` on MOSI at rising edges of SCLK and to leave the
datapath as in `t`. -/
structure Owes (s : State) (bits : List Bool) (t : State) : Prop where
  transmits : Transmits s.steps
  rises : stepRises s.steps s = bits
  datapath : SameDatapath (actions false s.steps s) t

/-- The command is the same under any host and with any errors recorded. -/
theorem Owes.congr {s s' t : State} {bits : List Bool} (h : Owes s bits t) (same : SameCommand s' s) :
    Owes s' bits t := by
  obtain ⟨data, -, hs, -⟩ := same
  refine ⟨hs ▸ h.transmits, ?_, ?_⟩ <;> rw [hs]
  · exact (stepRises_sameDatapath _ data).trans h.rises
  · exact sameDatapath_trans (actions_sameDatapath false _ data) h.datapath

/-- The steps without a wait that the invariant allows, TXEND and RXEND, leave SCLK and MOSI alone. -/
theorem action_wait_zero {x : SeqStep} (legal : legalWait x = true) (hw : x.wait = 0) (m : Bool)
    (s : State) : (x.action m s).sclk = s.sclk ∧ (x.action m s).mosi = s.mosi := by
  cases x with
  | txend | rxend => exact ⟨rfl, rfl⟩
  | cslo | cshi | ckidle => cases hw
  | txlo | txhi | rxlo | rxhi | hold =>
    cases hw
    cases legal

/-- What the steps of an edge put on MOSI is put there at that edge, and the rest of the list is owed. -/
theorem runSteps_owes (m : Bool) {l : List SeqStep} (tx : Transmits l) (s : State) :
    ∃ later, stepRises l s = mosiAtRise s [State.runSteps m l s] ++ later ∧
      Owes (State.runSteps m l s) later (actions false l s) := by
  induction l generalizing s with
  | nil =>
    refine ⟨[], ?_, nofun, rfl, sameDatapath_refl s⟩
    rw [State.runSteps, mosiAtRise_single_same (State.complete_sclk s)]
    rfl
  | cons x rest ih =>
    obtain ⟨⟨legal, quiet⟩, txRest⟩ := List.forall_mem_cons.1 tx
    have run : x.action m s = x.action false s := action_miso m false s quiet
    by_cases hw : x.wait = 0
    · obtain ⟨later, rises, owes⟩ := ih txRest (x.action false s)
      obtain ⟨hsclk, -⟩ := action_wait_zero legal hw false s
      rw [runSteps_zero m rest s hw, run]
      refine ⟨later, ?_, owes⟩
      rw [stepRises, mosiAtRise_single_same hsclk, rises, mosiAtRise_single_congr hsclk rfl rfl]
      rfl
    · have held : SameDatapath ((x.action false s).hold rest x.wait) (x.action false s) :=
        sameDatapath_refl _
      rw [runSteps_waiting m rest s hw, run]
      exact ⟨stepRises rest (x.action false s), rfl, txRest, stepRises_sameDatapath rest held,
        actions_sameDatapath false rest held⟩

/-- One edge pays what its steps put on MOSI. -/
theorem Owes.advance {s t : State} {bits : List Bool} (h : Owes s bits t) (m : Bool) :
    ∃ later, bits = mosiAtRise s [s.advance m] ++ later ∧ Owes (s.advance m) later t := by
  by_cases hd : s.dly = 0
  · obtain ⟨later, rises, owes⟩ := runSteps_owes m h.transmits s
    rw [advance_running m hd]
    exact ⟨later, h.rises.symm.trans rises, owes.transmits, owes.rises,
      sameDatapath_trans owes.datapath h.datapath⟩
  · have same : SameDatapath (s.advance m) s := by
      rw [advance_waiting m hd]
      exact sameDatapath_refl s
    have list : (s.advance m).steps = s.steps := by rw [advance_waiting m hd]
    have quiet : mosiAtRise s [s.advance m] = [] := by
      obtain ⟨hsclk, -⟩ := same
      exact mosiAtRise_single_same hsclk
    refine ⟨bits, ?_, list ▸ h.transmits, ?_, ?_⟩
    · rw [quiet]
      rfl
    · rw [list, stepRises_sameDatapath _ same, h.rises]
    · rw [list]
      exact sameDatapath_trans (actions_sameDatapath false _ same) h.datapath

/-! ### Sessions -/

/-- The script that led from `x` to `y` put `bits` on MOSI at rising edges of SCLK and recorded no
error. -/
structure Leads (x : Session) (bits : List Bool) (y : Session) : Prop where
  visited : ∃ seen, y.visited = x.visited ++ seen ∧
    ∀ later, mosiAtRise x.now (seen ++ later) = bits ++ mosiAtRise y.now later
  err : y.now.err = x.now.err
  errcode : y.now.errcode = x.now.errcode

theorem Leads.refl (x : Session) : Leads x [] x :=
  ⟨⟨[], (List.append_nil _).symm, fun _ => rfl⟩, rfl, rfl⟩

theorem Leads.trans {x y z : Session} {bits bits' : List Bool} (h : Leads x bits y)
    (k : Leads y bits' z) : Leads x (bits ++ bits') z := by
  obtain ⟨seen, hv, hr⟩ := h.visited
  obtain ⟨seen', hv', hr'⟩ := k.visited
  refine ⟨⟨seen ++ seen', ?_, fun later => ?_⟩, k.err.trans h.err, k.errcode.trans h.errcode⟩
  · rw [hv', hv, List.append_assoc]
  · rw [List.append_assoc, hr, hr', List.append_assoc]

/-- From a session that has visited no state yet, the states visited show all the bits. -/
theorem Leads.mosiAtRise_visited {x y : Session} {bits : List Bool} (h : Leads x bits y)
    (fresh : x.visited = []) : mosiAtRise x.now y.visited = bits := by
  obtain ⟨seen, hv, hr⟩ := h.visited
  have all := hr []
  rwa [List.append_nil, mosiAtRise, List.append_nil, ← List.nil_append seen, ← fresh, ← hv] at all

/-- One cycle of a script. -/
theorem leads_cycle {x : Session} {t : State} (he : t.err = x.now.err)
    (hc : t.errcode = x.now.errcode) :
    Leads x (mosiAtRise x.now [t]) { x with now := t, visited := x.visited ++ [t] } :=
  ⟨⟨[t], rfl, mosiAtRise_cons x.now t⟩, he, hc⟩

theorem leads_quiet_cycle {x : Session} {t : State} (hsclk : t.sclk = x.now.sclk)
    (he : t.err = x.now.err) (hc : t.errcode = x.now.errcode) :
    Leads x [] { x with now := t, visited := x.visited ++ [t] } :=
  mosiAtRise_single_same hsclk ▸ leads_cycle he hc

theorem sequencer_sameRest (b m : Bool) (s : State) : SameRest s (sequencer b m s) := by
  cases b with
  | false => exact .refl s
  | true => exact advance_sameRest m s

/-- A read leaves the edge to the sequencer (R63). -/
theorem step_withAccess_read (r : Reg) (s : State) :
    step (s.withAccess (.read r)) = .next (sequencer s.busy s.ports.miso s).nextCycle := by
  have noReset : (s.withAccess (.read r)).ports.rst = false := rfl
  have inputs : (s.withAccess (.read r)).inputs.tail =
      (sequencer s.busy s.ports.miso s).inputs.tail := by
    rw [sequencer_inputs]
    rfl
  rw [step_access noReset (hostAccess_of_no_write (.inr rfl) _), ← withInputs_nextCycle inputs,
    ← sequencer_withInputs]
  rfl

/-- A poll: one edge of the sequencer. -/
theorem busCycle_read_leads (r : Reg) (x : Session) : ∃ y, busCycle (.read r) x = .next y ∧
    SameCommand y.now (sequencer x.now.busy x.now.ports.miso x.now) ∧
    Leads x (mosiAtRise x.now [sequencer x.now.busy x.now.ports.miso x.now]) y := by
  have rest := sequencer_sameRest x.now.busy x.now.ports.miso x.now
  exact ⟨_, busCycle_next (step_withAccess_read r x.now), sameCommand_refl _,
    leads_cycle (t := State.nextCycle _) rest.err rest.errcode⟩

theorem idleIsEmpty_congr {s t : State} (h : SameCommand t s) (empty : IdleIsEmpty s) :
    IdleIsEmpty t := by
  obtain ⟨-, hb, hs, hd⟩ := h
  rwa [IdleIsEmpty, hb, hs, hd]

/-- The polls of a `sync` pay what the running command owes. -/
theorem pollLoop_leads {k : Nat} {x : Session} {bits : List Bool} {t : State}
    (hk : x.now.remaining = k) (empty : IdleIsEmpty x.now) (owes : Owes x.now bits t) :
    ∃ y, pollLoop k x = .next y ∧ Leads x bits y ∧ SameCommand y.now t.complete := by
  induction k generalizing x bits with
  | zero =>
    obtain ⟨y, hy, same, leads⟩ := busCycle_read_leads .status x
    have idle := (State.remaining_eq_zero_iff _).1 hk
    obtain ⟨noSteps, noWait⟩ := empty idle
    obtain ⟨-, rises, data⟩ := owes
    rw [noSteps] at rises data
    rw [idle] at same leads
    have quiet : mosiAtRise x.now [sequencer false x.now.ports.miso x.now] = [] :=
      mosiAtRise_single_same rfl
    rw [quiet] at leads
    exact ⟨y, hy, rises ▸ leads, sameCommand_trans same ⟨data, idle, noSteps, noWait⟩⟩
  | succ k ih =>
    obtain ⟨y, hy, same, leads⟩ := busCycle_read_leads .status x
    have hb : x.now.busy = true := busy_of_remaining_pos (by omega)
    rw [hb] at same leads
    have left : y.now.remaining = k := by
      have edge := advance_remaining x.now.ports.miso hb
      rw [remaining_of_sameCommand same]
      exact Nat.add_right_cancel (edge.trans hk)
    have empty' := idleIsEmpty_congr same (advance_idleIsEmpty x.now.ports.miso hb)
    obtain ⟨later, rises, owes'⟩ := owes.advance x.now.ports.miso
    obtain ⟨z, hz, leads', ends⟩ := ih left empty' (owes'.congr same)
    refine ⟨z, ?_, rises ▸ leads.trans leads', ends⟩
    rw [pollLoop, hy, readNow_status_busy, hb]
    exact hz

/-! ### Commands that transmit -/

/-- The commands whose steps take no sample of MISO: all but RECV and DEVR. -/
def transmitting : Instr → Bool
  | .recv | .devr _ _ => false
  | .csa | .csd | .send _ | .wait _ | .dispw _ _ | .devw _ _ => true

theorem transmits_append {l l' : List SeqStep} :
    Transmits (l ++ l') ↔ Transmits l ∧ Transmits l' := List.forall_mem_append

theorem transmits_txBits {h : Count} (hh : h ≠ 0) (b r : Byte) : Transmits (txBits b h r) := by
  intro x hx
  refine ⟨txByte_waits_legal hh b r x hx, ?_⟩
  rintro w rfl
  simp [← txByte_eq_txBits, txByte] at hx

theorem transmits_hold (n : Count) : Transmits (if n = 0 then [] else [.hold n]) := by
  intro x hx
  refine ⟨holdSteps_waits_legal n x hx, ?_⟩
  rintro w rfl
  split at hx <;> simp at hx

theorem transmits_open : Transmits [.cslo] := by simp [Transmits, legalWait]

theorem transmits_close : Transmits [.cshi, .ckidle] := by simp [Transmits, legalWait]

theorem transmits_expand {i : Instr} {s : State} (tx : transmitting i = true) (hh : s.hp ≠ 0) :
    Transmits (expand i s) := by
  cases i with
  | recv | devr => cases tx
  | csa => exact transmits_open
  | csd => exact transmits_close
  | send b => exact transmits_txBits hh b _
  | wait n => exact transmits_hold n
  | dispw a d =>
    simp only [expand, transmits_append]
    exact ⟨⟨⟨⟨transmits_open, transmits_txBits hh a _⟩, transmits_hold _⟩, transmits_txBits hh d _⟩,
      transmits_close⟩
  | devw a d =>
    simp only [expand, transmits_append]
    exact ⟨⟨⟨⟨transmits_open, transmits_txBits hh _ _⟩, transmits_txBits hh a _⟩,
      transmits_txBits hh d _⟩, transmits_close⟩

theorem wellFormed_of_transmitting {i : Instr} (tx : transmitting i = true) : i.WellFormed := by
  cases i with
  | recv | devr => cases tx
  | csa | csd | send | wait | dispw | devw => rfl

/-- A transmitting command starts with the datapath as it was. -/
theorem started_sameDatapath {i : Instr} (tx : transmitting i = true) (s : State) :
    SameDatapath (s.started i) s := by
  cases i with
  | recv | devr => cases tx
  | csa | csd | send | wait | dispw | devw => exact sameDatapath_refl s

theorem expand_congr (i : Instr) {s t : State} (hhp : s.hp = t.hp) (hst : s.st = t.st)
    (hwrop : s.wrop = t.wrop) (hrdop : s.rdop = t.rdop) : expand i s = expand i t := by
  cases i <;> simp only [expand, *]

theorem stateCheck_congr (i : Instr) {s t : State} (hcsN : s.csN = t.csN)
    (harmed : s.rdArmed = t.rdArmed) : stateCheck i s = stateCheck i t := by
  cases i <;> simp only [stateCheck, *]

/-- The cycle in which a script presents a command that passes its checks (R121). -/
theorem busCycle_starts {x : Session} {i : Instr} (wf : i.WellFormed) (idle : x.now.busy = false)
    (hc : stateCheck i x.now = none) : ∃ y, busCycle (.write .cmd (encode i)) x = .next y ∧
    SameCommand y.now (x.now.started i) ∧ Leads x [] y := by
  have presented : Presents (x.now.withAccess (.write .cmd (encode i))) i :=
    ⟨rfl, rfl, rfl, rfl, rfl⟩
  have check : stateCheck i (x.now.withAccess (.write .cmd (encode i))) = none := by
    rw [← hc]
    exact stateCheck_congr i rfl rfl
  have list : expand i (x.now.withAccess (.write .cmd (encode i))) = expand i x.now :=
    expand_congr i rfl rfl rfl rfl
  have edge := step_command_idle presented (decode_encode wf) idle (exec_starts wf idle check)
  exact ⟨_, busCycle_next edge, ⟨sameDatapath_refl (x.now.started i), rfl, list, rfl⟩,
    leads_quiet_cycle (t := State.nextCycle _) rfl rfl rfl⟩

/-- `do` of a transmitting command puts on MOSI what its steps do, and leaves what they leave. -/
theorem runStmt_doCmd_leads {x : Session} {i : Instr} {s : State} (tx : transmitting i = true)
    (hh : s.hp ≠ 0) (hc : stateCheck i s = none) (idle : x.now.busy = false)
    (same : SameDatapath x.now s) :
    ∃ y, runStmt x (.doCmd i) = .next y ∧ Leads x (stepRises (expand i s) s) y ∧
      SameCommand y.now (actions false (expand i s) s).complete := by
  have list : expand i x.now = expand i s := by
    obtain ⟨-, -, -, -, -, -, -, hhp, hst, hwrop, hrdop⟩ := same
    exact expand_congr i hhp hst hwrop hrdop
  have check : stateCheck i x.now = none := by
    obtain ⟨-, -, hcsN, harmed, -⟩ := same
    rw [stateCheck_congr i hcsN harmed, hc]
  obtain ⟨y, hy, ⟨data, hb, hs, -⟩, leads⟩ :=
    busCycle_starts (wellFormed_of_transmitting tx) idle check
  replace data : SameDatapath y.now s :=
    sameDatapath_trans data (sameDatapath_trans (started_sameDatapath tx x.now) same)
  replace hs : y.now.steps = expand i s := hs.trans list
  have owes : Owes y.now (stepRises (expand i s) s) (actions false (expand i s) s) := by
    refine ⟨?_, ?_, ?_⟩ <;> rw [hs]
    · exact transmits_expand tx hh
    · exact stepRises_sameDatapath _ data
    · exact actions_sameDatapath false _ data
  obtain ⟨z, hz, leads', ends⟩ := pollLoop_leads rfl (idleIsEmpty_of_busy hb) owes
  refine ⟨z, ?_, leads.trans leads', ends⟩
  rw [runStmt, hy]
  exact hz

/-! ### Sequences of commands (R205) -/

/-- The steps of a sequence of commands, one command after the other. -/
def sequenceSteps (cmds : List Instr) (s : State) : List SeqStep := cmds.flatMap (expand · s)

/-- Each command of a sequence passes its state check where the commands before it lead. -/
def ChecksPass : List Instr → State → Prop
  | [], _ => True
  | i :: rest, s => stateCheck i s = none ∧ ChecksPass rest (actions false (expand i s) s)

/-- No command changes the configuration that the commands after it are expanded with. -/
theorem sequenceSteps_after (cmds : List Instr) {s t : State} (h : SameRest s t) :
    sequenceSteps cmds t = sequenceSteps cmds s :=
  congrArg cmds.flatMap (funext fun i => expand_congr i h.hp h.st h.wrop h.rdop)

/-- `do` of each command of a sequence puts on MOSI what all their steps do, in order. -/
theorem runStmts_doCmds_leads {cmds : List Instr} {x : Session} {s : State}
    (tx : ∀ i ∈ cmds, transmitting i = true) (hh : s.hp ≠ 0) (pass : ChecksPass cmds s)
    (same : SameCommand x.now s.complete) :
    ∃ y, runStmts (cmds.map .doCmd) x = .next y ∧ Leads x (stepRises (sequenceSteps cmds s) s) y ∧
      SameCommand y.now (actions false (sequenceSteps cmds s) s).complete := by
  induction cmds generalizing x s with
  | nil => exact ⟨x, rfl, .refl x, same⟩
  | cons i rest ih =>
    obtain ⟨txHead, txRest⟩ := List.forall_mem_cons.1 tx
    obtain ⟨check, passRest⟩ := pass
    obtain ⟨data, idle, -⟩ := same
    have kept := actions_sameRest false (expand i s) s
    have steps : sequenceSteps (i :: rest) s = expand i s ++ sequenceSteps rest s :=
      List.flatMap_cons
    obtain ⟨y, hy, leads, ends⟩ := runStmt_doCmd_leads txHead hh check idle data
    obtain ⟨z, hz, leads', ends'⟩ := ih txRest (kept.hp ▸ hh) passRest ends
    rw [sequenceSteps_after rest kept] at leads' ends'
    rw [steps, stepRises_append, actions_append]
    refine ⟨z, ?_, leads.trans leads', ends'⟩
    rw [List.map_cons, runStmts, hy]
    exact hz

end Sys2Proof.Machine
end

section
/-! SUPPORT. DISPW and DEVW as host scripts run them (44_transactions.md R190 to R195, R205): the
frames on MOSI, and DISPW against its primitive commands. -/

namespace Sys2Proof.Machine

open Sys2Proof.Safety

/-! ### A transmitted byte -/

/-- Once all its steps are due, a list has run. -/
theorem ranBy_all_due {m : Bool} {n e : Nat} (l : List SeqStep) (due : e + sumWaits l ≤ n)
    (s : State) : ranBy (fun _ => m) n e l s = actions m l s := by
  induction l generalizing e s with
  | nil => rfl
  | cons x rest ih =>
    rw [sumWaits] at due
    rw [ranBy, if_pos (by omega), ih (by omega)]
    rfl

/-- A byte ends with its last bit on the line and the read-arming done (R163). -/
@[simp] theorem actions_txBits (b : Byte) (h : Count) (r : Byte) (s : State) :
    actions false (txBits b h r) s = (s.txBit b 7 true).arm b r := by
  have due : 0 + sumWaits (txBits b h r) ≤ 0 + 16 * h.toNat := by rw [sumWaits_txBits]
  rw [← ranBy_all_due _ due, ranBy_txBits_end le_rfl]

/-- TXLO of bit `i`, after the bits before it, drives that bit. -/
theorem txlo_actions (i : Fin 8) (b : Byte) (h : Count) (m : Bool) (s : State) :
    (SeqStep.txlo i b h).action m
      (actions false (bitSteps (SeqStep.txlo · b h) (.txhi h) i.val) s) = s.txBit b i.val false := by
  have due : 0 + sumWaits (bitSteps (SeqStep.txlo · b h) (.txhi h) i.val) ≤
      0 + 2 * i.val * h.toNat := by
    rw [sumWaits_bitSteps (txHalfPeriods b h) i.isLt.le]
  rw [← ranBy_all_due _ due, txlo_ranBy i le_rfl]

/-- A bit period raises SCLK once, with the bit that its low half drove on the line (R132). -/
theorem stepRises_txPeriod (i : Fin 8) (b : Byte) (h : Count) (s : State) :
    stepRises [.txlo i b h, .txhi h] s = [((SeqStep.txlo i b h).action false s).mosi] := by
  have low : mosiAtRise s [s.txLow i b] = [] := mosiAtRise_single_low rfl
  simp only [stepRises, SeqStep.action, low]
  rfl

/-- The first `j` bits of the byte, most significant first, at the rises of the first `j` bit periods. -/
theorem stepRises_bitSteps (b : Byte) (h : Count) {j : Nat} (hj : j ≤ 8) (s : State) :
    stepRises (bitSteps (SeqStep.txlo · b h) (.txhi h) j) s = (msbFirst b).take j := by
  induction j with
  | zero => rfl
  | succ j ih =>
    have index : ∀ i : Fin 8, (List.finRange 8)[i.val]? = some i := by simp
    have bit : (msbFirst b)[j]? = some (b.getLsbD (7 - j)) := by
      rw [msbFirst, List.getElem?_map, index ⟨j, hj⟩]
      rfl
    rw [bitSteps_succ ⟨j, hj⟩, stepRises_append, ih (by omega), stepRises_txPeriod,
      txlo_actions ⟨j, hj⟩, List.take_add_one, bit]
    rfl

/-- A step that leaves SCLK alone makes no rise. -/
theorem stepRises_quiet {x : SeqStep} {s : State} (h : (x.action false s).sclk = s.sclk) :
    stepRises [x] s = [] := by
  rw [stepRises, stepRises, List.append_nil, mosiAtRise_single_same h]

@[simp] theorem stepRises_txBits (b : Byte) (h : Count) (r : Byte) (s : State) :
    stepRises (txBits b h r) s = msbFirst b := by
  have arming : ∀ u, stepRises [.txend b r] u = [] := fun u => stepRises_quiet rfl
  rw [txBits_eq_bitSteps, stepRises_append, stepRises_bitSteps b h le_rfl, arming, List.append_nil]
  rfl

/-! ### The steps between and around the bytes -/

@[simp] theorem stepRises_open (s : State) : stepRises [.cslo] s = [] := stepRises_quiet rfl

@[simp] theorem stepRises_hold (count : Count) (s : State) :
    stepRises (if count = 0 then [] else [.hold count]) s = [] := by
  split
  case isTrue => rfl
  case isFalse => exact stepRises_quiet rfl

@[simp] theorem stepRises_close (s : State) : stepRises [.cshi, .ckidle] s = [] := by
  have release : mosiAtRise s [s.closeTxn] = [] := mosiAtRise_single_same rfl
  have idle : mosiAtRise s.closeTxn [{ s.closeTxn with sclk := false }] = [] :=
    mosiAtRise_single_low rfl
  simp only [stepRises, SeqStep.action, release, idle, List.append_nil]

@[simp] theorem actions_open (s : State) : actions false [.cslo] s = s.openTxn := rfl

@[simp] theorem actions_hold (count : Count) (s : State) :
    actions false (if count = 0 then [] else [.hold count]) s = s := by
  split <;> rfl

@[simp] theorem actions_close (s : State) :
    actions false [.cshi, .ckidle] s = { s.closeTxn with sclk := false } := rfl

/-! ### The transactions -/

/-- The settle hold puts nothing on MOSI (R190, R191). -/
theorem stepRises_dispw (a d : Byte) (s : State) :
    stepRises (expand (.dispw a d) s) s = msbFirst a ++ msbFirst d := by
  simp only [expand, stepRises_append, stepRises_open, stepRises_txBits, stepRises_hold,
    stepRises_close, List.nil_append, List.append_nil]

theorem stepRises_devw (a d : Byte) (s : State) :
    stepRises (expand (.devw a d) s) s = msbFirst s.wrop ++ msbFirst a ++ msbFirst d := by
  simp only [expand, stepRises_append, stepRises_open, stepRises_txBits, stepRises_close,
    List.nil_append, List.append_nil]

/-- A byte sent in the transaction that `s` has open. -/
def State.sent (s : State) (b r : Byte) : State := (s.txBit b 7 true).arm b r

theorem actions_dispw (a d : Byte) (s : State) : actions false (expand (.dispw a d) s) s =
    { ((s.openTxn.sent a s.rdop).sent d s.rdop).closeTxn with sclk := false } := by
  simp only [expand, actions_append, actions_open, actions_txBits, actions_hold, actions_close]
  rfl

theorem actions_devw (a d : Byte) (s : State) : actions false (expand (.devw a d) s) s =
    { (((s.openTxn.sent s.wrop s.rdop).sent a s.rdop).sent d s.rdop).closeTxn with
      sclk := false } := by
  simp only [expand, actions_append, actions_open, actions_txBits, actions_close]
  rfl

/-- The session of a script that has run no statement yet. -/
def Session.fresh (s : State) : Session := ⟨s, [], []⟩

/-- The script of one command that passes its checks. -/
theorem runScript_doCmd {s : State} {i : Instr} (tx : transmitting i = true) (hh : s.hp ≠ 0)
    (hc : stateCheck i s = none) (idle : s.busy = false) :
    ∃ x, runScript [.doCmd i] s = .next x ∧ mosiAtRise s x.visited = stepRises (expand i s) s ∧
      SameCommand x.now (actions false (expand i s) s).complete ∧
      x.now.err = s.err ∧ x.now.errcode = s.errcode := by
  obtain ⟨x, hx, leads, ends⟩ :=
    runStmt_doCmd_leads (x := .fresh s) tx hh hc idle (sameDatapath_refl s)
  refine ⟨x, ?_, leads.mosiAtRise_visited rfl, ends, leads.err, leads.errcode⟩
  show runStmts [.doCmd i] (.fresh s) = .next x
  rw [runStmts, hx]
  rfl

/-- The script of a transaction that closes what its sent bytes make of the machine, `u`. -/
theorem runScript_transaction {s u : State} {i : Instr} (tx : transmitting i = true) (hh : s.hp ≠ 0)
    (hc : stateCheck i s = none) (idle : s.busy = false)
    (ends : actions false (expand i s) s = { u.closeTxn with sclk := false })
    (rest : SameRest s u) (rx : u.rxdata = s.rxdata) :
    ∃ x, runScript [.doCmd i] s = .next x ∧ mosiAtRise s x.visited = stepRises (expand i s) s ∧
      x.now.busy = false ∧ x.now.csN = true ∧ x.now.sclk = false ∧ x.now.mosi = u.mosi ∧
      x.now.first = false ∧ x.now.rdArmed = false ∧ x.now.rxdata = s.rxdata ∧
      x.now.err = s.err ∧ x.now.errcode = s.errcode ∧ x.now.hp = s.hp ∧ x.now.st = s.st ∧
      x.now.wrop = s.wrop ∧ x.now.rdop = s.rdop := by
  obtain ⟨x, hx, rises, ⟨data, hb, -⟩, he, hcode⟩ := runScript_doCmd tx hh hc idle
  rw [ends] at data
  obtain ⟨hsclk, hmosi, hcsN, harmed, hfirst, hrx, -, hhp, hst, hwrop, hrdop⟩ := data
  exact ⟨x, hx, rises, hb, hcsN, hsclk, hmosi, hfirst, harmed, hrx.trans rx, he, hcode,
    hhp.trans rest.hp, hst.trans rest.st, hwrop.trans rest.wrop, hrdop.trans rest.rdop⟩

theorem sent_sameRest (s : State) (b r : Byte) : SameRest s (s.sent b r) :=
  ⟨rfl, rfl, rfl, rfl, rfl, rfl, rfl, rfl⟩

theorem openTxn_sameRest (s : State) : SameRest s s.openTxn := action_sameRest false s .cslo

/-- Settles O49: the rises of DISPW's steps, and the state they leave. -/
theorem dispwSendsItsFrame : Obligations.DispwSendsItsFrame := by
  unfold Obligations.DispwSendsItsFrame
  intro s a d idle hc _ hh
  have rest := ((openTxn_sameRest s).trans (sent_sameRest _ a s.rdop)).trans
    (sent_sameRest _ d s.rdop)
  rw [← stepRises_dispw]
  exact runScript_transaction rfl hh (stateCheck_dispw a d hc) idle (actions_dispw a d s) rest rfl

/-- Settles O50: the rises of DEVW's steps, and the state they leave. -/
theorem devwSendsItsFrame : Obligations.DevwSendsItsFrame := by
  unfold Obligations.DevwSendsItsFrame
  intro s a d idle hc _ hh
  have rest := (((openTxn_sameRest s).trans (sent_sameRest _ s.wrop s.rdop)).trans
    (sent_sameRest _ a s.rdop)).trans (sent_sameRest _ d s.rdop)
  rw [← stepRises_devw]
  exact runScript_transaction rfl hh (stateCheck_devw a d hc) idle (actions_devw a d s) rest rfl

/-! ### DISPW and its primitives (R205) -/

/-- The primitive commands that follow CSA in a DISPW. -/
def dispwTail (a d : Byte) (s : State) : List Instr := [.send a, .wait s.st, .send d, .csd]

/-- A DISPW's steps are those of its primitive commands, one after the other. -/
theorem expand_dispw_eq (a d : Byte) (s : State) :
    expand (.dispw a d) s = expand .csa s ++ sequenceSteps (dispwTail a d s) s := by
  simp [sequenceSteps, dispwTail, expand]

/-- In an open transaction each of the primitives passes its check. -/
theorem checksPass_dispwTail (a d : Byte) (s : State) :
    ChecksPass (dispwTail a d s) s.openTxn := by
  simp only [dispwTail, ChecksPass, expand, actions_txBits, actions_hold]
  exact ⟨stateCheck_send a rfl, rfl, stateCheck_send d rfl, stateCheck_csd rfl, trivial⟩

/-- Settles O51: both scripts run the same steps, so both do what `stepRises` and `actions` say of
them. -/
theorem dispwEqualsItsPrimitives : Obligations.DispwEqualsItsPrimitives := by
  unfold Obligations.DispwEqualsItsPrimitives
  intro s a d idle hc _ hh
  obtain ⟨x, hx, risesX, endsX, errX, codeX⟩ :=
    runScript_doCmd (i := .dispw a d) rfl hh (stateCheck_dispw a d hc) idle
  have tail : ∀ i ∈ dispwTail a d s, transmitting i = true := by simp [dispwTail, transmitting]
  obtain ⟨y, hy, leadsY, endsY⟩ := runStmt_doCmd_leads (x := .fresh s) (i := .csa) rfl hh
    (stateCheck_csa hc) idle (sameDatapath_refl s)
  obtain ⟨z, hz, leadsZ, endsZ⟩ := runStmts_doCmds_leads (s := s.openTxn) tail hh
    (checksPass_dispwTail a d s) endsY
  rw [sequenceSteps_after (t := s.openTxn) _ (openTxn_sameRest s)] at leadsZ endsZ
  rw [expand_dispw_eq, stepRises_append] at risesX
  rw [expand_dispw_eq, actions_append] at endsX
  have run : runScript (.doCmd .csa :: (dispwTail a d s).map .doCmd) s = .next z := by
    show runStmts (.doCmd .csa :: (dispwTail a d s).map .doCmd) (.fresh s) = .next z
    rw [runStmts, hy]
    exact hz
  have leads := leadsY.trans leadsZ
  refine ⟨x, z, hx, run, ?_, sameCommand_trans endsX (sameCommand_symm endsZ), ?_, ?_⟩
  · exact risesX.trans (leads.mosiAtRise_visited rfl).symm
  · exact errX.trans leads.err.symm
  · exact codeX.trans leads.errcode.symm

end Sys2Proof.Machine
end

section
/-! SUPPORT. Misuse errors (60_exceptions.md): what raises each of them (R221 to R223), how long one
stays recorded (R224, R225), that none stands in a command's way (R226), and the edges at which none
can arise (R220). -/

namespace Sys2Proof.Machine

open Sys2Proof.Safety

/-! ### The causes and their codes (R221, R223) -/

/-- The first error is recorded with its own code (R224). -/
theorem raise_of_no_error {s : State} (noError : s.err = false) (m : Misuse) :
    s.raise m = { s with err := true, errcode := m.code } := by
  rw [State.raise, noError]
  rfl

theorem writeIfIdle_busy {s : State} (hb : s.busy = true) (new : State) :
    s.writeIfIdle new = s.raise .busy := if_pos hb

theorem hostWrite_config_busy {r : Reg} {s : State} (v : Word)
    (hr : r ∈ [Reg.halfper, .settle, .profile]) (hb : s.busy = true) :
    hostWrite r v s = .next (s.raise .busy) := by
  cases r with
  | halfper | settle | profile => exact congrArg _ (writeIfIdle_busy hb _)
  | status | cmd | rxdata | pins | reserved => simp at hr

/-- ILLEGAL comes before the state checks (R223). -/
theorem exec_illegal {i : Instr} {s : State} (ill : ¬ i.WellFormed) (idle : s.busy = false) :
    exec i s = .next (s.raise .illegal) := by
  rw [exec_eq_attempt, acceptCheck, if_neg ill, attempt_rejected idle]

/-- Settles O28: each cause makes the write or the command raise its error, and with none recorded the
error raised is the one recorded. -/
theorem misuseCodesAndPriority : Obligations.MisuseCodesAndPriority := by
  unfold Obligations.MisuseCodesAndPriority
  intro s noError
  have records : ∀ (m : Misuse) {o : Host.Outcome State Fault Refusal}, o = .next (s.raise m) →
      o = .next { s with err := true, errcode := m.code } :=
    fun m _ raised => raised.trans (congrArg _ (raise_of_no_error noError m))
  refine ⟨fun w hb => records .busy (cmdWrite_busy w hb),
    fun r v hr hb => records .busy (hostWrite_config_busy v hr hb),
    fun w e idle hd => records .illegal (cmdWrite_illegal idle hd),
    fun a k idle hk => records .illegal (exec_illegal (not_legalCount_iff.2 hk) idle),
    fun a d k idle hc h1 h4 => ?_, fun b idle hc => ?_, fun idle hc unarmed => ?_⟩
  · have rejected {i : Instr} (wf : i.WellFormed) (check : stateCheck i s = some .txnOpen) :=
      records .txnOpen (exec_rejected wf idle check)
    exact ⟨rejected rfl (if_pos hc), rejected rfl (if_pos hc), rejected rfl (if_pos hc),
      rejected (devr_wellFormed a h1 h4) (if_pos hc)⟩
  · have rejected {i : Instr} (wf : i.WellFormed) (check : stateCheck i s = some .noCs) :=
      records .noCs (exec_rejected wf idle check)
    exact ⟨rejected rfl (if_pos hc), rejected rfl (if_pos hc), rejected rfl (if_pos hc)⟩
  · have check : stateCheck .recv s = some .noReadMode := by simp [stateCheck, hc, unarmed]
    exact records .noReadMode (exec_rejected rfl idle check)

/-! ### A recorded error stays (R224, R225) -/

/-- The same error is recorded, or none. -/
abbrev SameError (s t : State) : Prop := t.err = s.err ∧ t.errcode = s.errcode

/-- A later error is lost (R224). -/
theorem raise_sameError {s : State} (he : s.err = true) (m : Misuse) : SameError s (s.raise m) :=
  ⟨he.symm, if_pos he⟩

theorem exec_sameError {i : Instr} {s t : State} (he : s.err = true) (h : exec i s = .next t) :
    SameError s t := by
  rcases exec_cases i s with ⟨m, raised⟩ | ⟨-, l, rx, starts⟩
  · cases raised.symm.trans h
    exact raise_sameError he m
  · cases starts.symm.trans h
    exact ⟨rfl, rfl⟩

theorem cmdWrite_sameError {w : Word} {s t : State} (he : s.err = true)
    (h : cmdWrite w s = .next t) : SameError s t := by
  cases hd : decode w with
  | ok i =>
    rw [cmdWrite_eq_exec hd] at h
    exact exec_sameError he h
  | error e =>
    cases hb : s.busy with
    | true =>
      cases (cmdWrite_busy w hb).symm.trans h
      exact raise_sameError he .busy
    | false =>
      cases (cmdWrite_illegal hb hd).symm.trans h
      exact raise_sameError he .illegal

theorem writeIfIdle_sameError {s new : State} (he : s.err = true) (kept : SameError s new) :
    SameError s (s.writeIfIdle new) := by
  rcases writeIfIdle_cases s new with ⟨-, h⟩ | ⟨-, h⟩ <;> rw [h]
  · exact raise_sameError he .busy
  · exact kept

/-- STATUS with bit 8 set is the one write that clears a recorded error (R225). -/
theorem hostWrite_sameError {r : Reg} {v : Word} {s t : State} (he : s.err = true)
    (noClear : r = .status → v.getLsbD 8 ≠ true) (h : hostWrite r v s = .next t) :
    SameError s t := by
  cases r with
  | cmd => exact cmdWrite_sameError he h
  | status =>
    cases h
    have ignored : s.writeStatus v = s := if_neg (noClear rfl)
    exact ⟨congrArg State.err ignored, congrArg State.errcode ignored⟩
  | halfper | settle | profile =>
    cases h
    exact writeIfIdle_sameError he ⟨rfl, rfl⟩
  | rxdata | pins | reserved =>
    cases h
    exact ⟨rfl, rfl⟩

theorem sequencer_sameError (b m : Bool) {s t : State} (h : SameError s t) :
    SameError s (sequencer b m t).nextCycle := by
  have kept := sequencer_sameRest b m t
  exact ⟨kept.err.trans h.1, kept.errcode.trans h.2⟩

/-! ### The host's part of an edge -/

theorem Reg.slot_ofSlot (a : BitVec 3) : (Reg.ofSlot a).slot = a := by
  revert a
  decide

/-- At an edge without reset the host writes nothing, or one register. -/
theorem noWrite_or_writesReg {s : State} (hr : s.ports.rst = false) :
    (s.ports.busSel = false ∨ s.ports.busWe = false) ∨ ∃ r v, WritesReg s r v := by
  cases hsel : s.ports.busSel with
  | false => exact .inl (.inl rfl)
  | true =>
    cases hwe : s.ports.busWe with
    | false => exact .inl (.inr rfl)
    | true => exact .inr ⟨_, _, hr, hsel, hwe, (Reg.slot_ofSlot _).symm, rfl⟩

/-- An edge without a host write is the sequencer's part alone (R120). -/
theorem step_of_no_write {s : State} (hr : s.ports.rst = false)
    (h : s.ports.busSel = false ∨ s.ports.busWe = false) :
    step s = .next (sequencer s.busy s.ports.miso s).nextCycle :=
  step_access hr (hostAccess_of_no_write h s)

theorem step_sameError {s t : State} (hr : s.ports.rst = false) (he : s.err = true)
    (noClear : ¬ ∃ v : Word, WritesReg s .status v ∧ v.getLsbD 8 = true)
    (h : step s = .next t) : SameError s t := by
  rcases noWrite_or_writesReg hr with noWrite | ⟨r, v, write⟩
  · cases (step_of_no_write hr noWrite).symm.trans h
    exact sequencer_sameError _ _ ⟨rfl, rfl⟩
  · obtain ⟨u, hu, -⟩ := hostWrite_cases r v s
    cases (step_write write hu).symm.trans h
    have kept : SameError s u :=
      hostWrite_sameError he (fun status bit => noClear ⟨v, status ▸ write, bit⟩) hu
    exact sequencer_sameError _ _ kept

/-- Settles O30: a clearing write is the idle edge with no error in it; the next error is the first
again; no other edge clears one, by `step_sameError`. -/
theorem errorsStickUntilCleared : Obligations.ErrorsStickUntilCleared := by
  unfold Obligations.ErrorsStickUntilCleared
  intro s
  refine ⟨fun v write bit => ?_, fun m noError => ?_, fun t hr he noClear h => ?_⟩
  · have clears : s.writeStatus v = s.clearError := if_pos bit
    exact step_write_error write (congrArg _ clears)
  · rw [raise_of_no_error noError]
    exact ⟨rfl, rfl⟩
  · obtain ⟨err, code⟩ := step_sameError hr he noClear h
    exact ⟨err.trans he, code⟩

/-! ### Errors do not block (R226) -/

/-- The recorded error plays no part in how a command starts. -/
theorem started_setError (i : Instr) (s : State) (e : Bool) (c : BitVec 4) :
    State.started { s with err := e, errcode := c } i =
      { s.started i with err := e, errcode := c } := by
  cases i <;> rfl

/-- Settles O31: the state check and the state started in look at no error. -/
theorem errorsDoNotBlock : Obligations.ErrorsDoNotBlock := by
  unfold Obligations.ErrorsDoNotBlock
  intro s i e c idle wf check
  have starts := exec_starts (s := { s with err := e, errcode := c }) wf idle
    ((stateCheck_congr i rfl rfl).trans check)
  exact ⟨s.started i, exec_starts wf idle check, rfl,
    starts.trans (congrArg _ (started_setError i s e c))⟩

/-! ### Edges without a write (R120, R220, R245) -/

/-- Settles O55: the sequencer's part alone, which is nothing while idle, and while busy keeps the
errors and the configuration. -/
theorem edgeWithoutAWrite : Obligations.EdgeWithoutAWrite := by
  unfold Obligations.EdgeWithoutAWrite
  intro s hr noWrite
  have edge := step_of_no_write hr noWrite
  refine ⟨fun idle => ?_, fun hb => ?_⟩
  · rw [edge, sequencer, if_neg (by simp [idle])]
    rfl
  · have advances : step s = .next (s.advance s.ports.miso).nextCycle := by
      rw [edge, sequencer, if_pos hb]
    have kept := advance_sameRest s.ports.miso s
    exact ⟨advances, _, advances, kept.err, kept.errcode, kept.hp, kept.st, kept.wrop, kept.rdop⟩

end Sys2Proof.Machine
end

section
/-! SUPPORT. Reset (70_reset_and_hazards.md R260): what a host reads after an edge with `rst = 1`, and
that the edge leaves every register at its value of R37. -/

namespace Sys2Proof.Machine

/-- The input cycles that go on after a reset edge play no part in a read (R63). -/
@[simp] theorem resetEdge_busRead (s : State) (miso : Bool) (r : Reg) :
    s.resetEdge.busRead miso r = State.reset.busRead miso r := by
  cases r <;> rfl

/-- What host reads return while the machine is in its reset state (R260). -/
theorem reset_busRead (miso : Bool) :
    State.reset.busRead miso .status = 0 ∧ State.reset.busRead miso .rxdata = 0 ∧
      State.reset.busRead miso .halfper = 0xFFFF ∧ State.reset.busRead miso .settle = 0xFFFF ∧
      State.reset.busRead miso .profile = 0x0B0A ∧
      State.reset.busRead miso .pins = if miso = true then 0xC else 0x4 := by
  cases miso <;> decide

/-- Settles O7: the edge is the reset edge alone (`step_reset`), which takes every register from
`State.reset`, and so from R37 (`resetStateValues`), and keeps the later input cycles. -/
theorem resetOverridesEverything : Obligations.ResetOverridesEverything := by
  unfold Obligations.ResetOverridesEverything
  intro s hr
  obtain ⟨sclk, mosi, csN, busy, -, rdArmed, first, err, errcode, rxdata, hp, st, wrop, rdop, steps,
    dly, sr⟩ := resetStateValues
  refine ⟨s.resetEdge, step_reset hr, sclk, mosi, csN, busy, rdArmed, first, err, errcode, rxdata,
    hp, st, wrop, rdop, steps, dly, sr, s.resetEdge_portsAt, fun miso => ?_⟩
  simp only [resetEdge_busRead]
  exact reset_busRead miso

end Sys2Proof.Machine
end

section
/-! SUPPORT. The published words of 95_test_vectors.md section 2.1. -/

namespace Sys2Proof

/-- Settles O1: each legal word is the encoding of its well-formed command (`decode_eq_ok_iff`), and each
illegal one fails the decoder's check for its OP. -/
theorem decodesPublishedWords : Obligations.DecodesPublishedWords := by
  unfold Obligations.DecodesPublishedWords
  simp only [decode_eq_ok_iff]
  decide

end Sys2Proof
end

section
/-! SUPPORT. No edge stops the machine (93_implementation_defined.md). -/

namespace Sys2Proof.Machine

/-- Settles O8: reset has a next state, and so has every host access (`step_next`). -/
theorem everyEdgeHasANextState : Obligations.EveryEdgeHasANextState := by
  unfold Obligations.EveryEdgeHasANextState
  exact step_next

end Sys2Proof.Machine
end
